-- ==== Sys2Proof/Word.lean ====
section
/-! DEFINITION. The widths of the block's words: a command word, a device register, a byte on the wire (00_scope.md R7, R10). -/

namespace Sys2Proof

/-- The command word `CW`, the operand `X` and the result register (R7: `CW_W`, `X_W`, `RES_W`). -/
abbrev Word := BitVec 32

/-- A 16-bit device register value, and the field `D` of the command word (R7, R60). -/
abbrev Half := BitVec 16

/-- A byte on the wire, and the field `A` of the command word (R7, R60). -/
abbrev Byte := BitVec 8

/-- A slave address (R7: `SLA_W`). -/
abbrev SlaveAddr := BitVec 7

end Sys2Proof
end

