-- ==== Sys2Proof/Syntax.lean ====
section
/-! DEFINITION. The commands of the opcode map (30_encoding.md R61, spec/opcode_table.json): one constructor per row, in the
table's order, with the operand fields of R64. The operand `X` of ENCODE_LIMIT and SET_LIMIT is no field of the command word:
it travels on `cmd_x` and is read from `CUR_X` (R60, R63). -/

namespace Sys2Proof

inductive Instr where
  /-- DECODE_TEMP raw16 (R80). -/
  | decodeTemp (raw : Half)
  /-- DECODE_STATUS raw16 (R81). -/
  | decodeStatus (raw : Half)
  /-- ENCODE_LIMIT, operand on `cmd_x` (R82). -/
  | encodeLimit
  /-- WRITE16 reg, value16 (R100). -/
  | write16 (reg : Byte) (v : Half)
  /-- WRITE8 reg, value8 (R101). -/
  | write8 (reg : Byte) (b : Byte)
  /-- READ16 reg (R102). -/
  | read16 (reg : Byte)
  /-- READ8 reg (R103). -/
  | read8 (reg : Byte)
  /-- INIT sla7 (R110). -/
  | init (sla : SlaveAddr)
  /-- GET_TEMPERATURE (R111). -/
  | getTemperature
  /-- SET_RESOLUTION code (R112). -/
  | setResolution (code : BitVec 2)
  /-- SET_LIMIT which, operand on `cmd_x` (R113); `which` = 3 is not well formed. -/
  | setLimit (which : BitVec 2)
  /-- ALERT_ENABLE hyst, mode (R114); mode 1 is critical-only, 0 all-alert. -/
  | alertEnable (hyst : BitVec 2) (mode : BitVec 1)
  /-- GET_ALERT_PIN (R116). -/
  | getAlertPin
  /-- GET_ALERT_STATUS (R117). -/
  | getAlertStatus
  /-- SLEEP (R122). -/
  | sleep
  /-- WAKEUP (R123). -/
  | wakeup
  /-- TCRIT_LOCK (R124). -/
  | tcritLock
  /-- TCRIT_UNLOCK (R125). -/
  | tcritUnlock
  /-- WINDOW_LOCK (R126). -/
  | windowLock
  /-- WINDOW_UNLOCK (R127). -/
  | windowUnlock
  /-- GET_MANUFACTURER_ID (R128). -/
  | getManufacturerId
  /-- GET_DEVICE_ID (R129). -/
  | getDeviceId
deriving DecidableEq, Repr

end Sys2Proof
end

