-- ==== Sys2Proof/WellFormed.lean ====
section
/-! DEFINITION. Which terms of `Instr` stand for a command word. Every operand field has exactly its width in the word, so the one
check is the selector of SET_LIMIT (30_encoding.md R62, R65: `which` = 3 is illegal). -/

namespace Sys2Proof

/-- R62: "SET_LIMIT requires `A[1:0]` ≠ 3". -/
def limitSelectorOk (which : BitVec 2) : Bool := which != 3#2

/-- A command that some legal command word stands for. -/
def Instr.wf : Instr → Bool
  | .setLimit which => limitSelectorOk which
  | .decodeTemp _ | .decodeStatus _ | .encodeLimit => true
  | .write16 _ _ | .write8 _ _ | .read16 _ | .read8 _ => true
  | .init _ | .getTemperature | .setResolution _ | .alertEnable _ _ => true
  | .getAlertPin | .getAlertStatus | .sleep | .wakeup => true
  | .tcritLock | .tcritUnlock | .windowLock | .windowUnlock => true
  | .getManufacturerId | .getDeviceId => true

end Sys2Proof
end

