-- ==== Sys2Proof/Decode.lean ====
section
/-! DEFINITION. Command words (30_encoding.md R60 to R65): the fields of a word, the decoder, total on every 32-bit word and
rejecting by name, the encoder, and the opcode map as match and mask rows (R61, R62). -/

namespace Sys2Proof

/-- `OP` = `CW[7:0]` (R60). -/
def opField (cw : Word) : Byte := cw.extractLsb' 0 8

/-- `A` = `CW[15:8]` (R60). -/
def aField (cw : Word) : Byte := cw.extractLsb' 8 8

/-- `D` = `CW[31:16]` (R60). -/
def dField (cw : Word) : Half := cw.extractLsb' 16 16

/-- The command word with the given fields (R60). -/
def commandWord (d : Half) (a : Byte) (op : Byte) : Word := d ++ a ++ op

/-- Why a word selects no row of the opcode map (R62, R65). The block answers each with ILLEGAL_COMMAND (R141). -/
inductive Reject where
  /-- An `OP` not in the opcode map. -/
  | unknownOpcode (op : Byte)
  /-- A reserved bit of the row is not 0. -/
  | reservedBits
  /-- SET_LIMIT with `A[1:0]` = 3. -/
  | limitSelector
deriving DecidableEq, Repr

/-- The command `i` where the row's reserved bits are 0 (R61: "reserved and must be 0"). -/
def reservedZero (ok : Bool) (i : Instr) : Except Reject Instr :=
  if ok then .ok i else .error .reservedBits

/-- The decoder (R61, R62, R64). -/
def decode (cw : Word) : Except Reject Instr :=
  let a := aField cw
  let d := dField cw
  match opField cw with
  | 0x01#8 => reservedZero (a == 0#8) (.decodeTemp d)
  | 0x02#8 => reservedZero (a == 0#8) (.decodeStatus d)
  | 0x03#8 => reservedZero (a == 0#8 && d == 0#16) .encodeLimit
  | 0x10#8 => .ok (.write16 a d)
  | 0x11#8 => reservedZero (d.extractLsb' 8 8 == 0#8) (.write8 a (d.extractLsb' 0 8))
  | 0x12#8 => reservedZero (d == 0#16) (.read16 a)
  | 0x13#8 => reservedZero (d == 0#16) (.read8 a)
  | 0x20#8 => reservedZero (a == 0#8 && d.extractLsb' 7 9 == 0#9) (.init (d.extractLsb' 0 7))
  | 0x21#8 => reservedZero (a == 0#8 && d == 0#16) .getTemperature
  | 0x22#8 => reservedZero (a == 0#8 && d.extractLsb' 2 14 == 0#14) (.setResolution (d.extractLsb' 0 2))
  | 0x23#8 =>
    if a.extractLsb' 2 6 == 0#6 && d == 0#16 then
      if limitSelectorOk (a.extractLsb' 0 2) then .ok (.setLimit (a.extractLsb' 0 2)) else .error .limitSelector
    else .error .reservedBits
  | 0x24#8 =>
    reservedZero (a == 0#8 && d.extractLsb' 3 13 == 0#13) (.alertEnable (d.extractLsb' 0 2) (d.extractLsb' 2 1))
  | 0x25#8 => reservedZero (a == 0#8 && d == 0#16) .getAlertPin
  | 0x26#8 => reservedZero (a == 0#8 && d == 0#16) .getAlertStatus
  | 0x27#8 => reservedZero (a == 0#8 && d == 0#16) .sleep
  | 0x28#8 => reservedZero (a == 0#8 && d == 0#16) .wakeup
  | 0x29#8 => reservedZero (a == 0#8 && d == 0#16) .tcritLock
  | 0x2A#8 => reservedZero (a == 0#8 && d == 0#16) .tcritUnlock
  | 0x2B#8 => reservedZero (a == 0#8 && d == 0#16) .windowLock
  | 0x2C#8 => reservedZero (a == 0#8 && d == 0#16) .windowUnlock
  | 0x2D#8 => reservedZero (a == 0#8 && d == 0#16) .getManufacturerId
  | 0x2E#8 => reservedZero (a == 0#8 && d == 0#16) .getDeviceId
  | op => .error (.unknownOpcode op)

/-- The `OP` value of each command (R61). -/
def Instr.opcode : Instr → Byte
  | .decodeTemp _ => 0x01#8
  | .decodeStatus _ => 0x02#8
  | .encodeLimit => 0x03#8
  | .write16 _ _ => 0x10#8
  | .write8 _ _ => 0x11#8
  | .read16 _ => 0x12#8
  | .read8 _ => 0x13#8
  | .init _ => 0x20#8
  | .getTemperature => 0x21#8
  | .setResolution _ => 0x22#8
  | .setLimit _ => 0x23#8
  | .alertEnable _ _ => 0x24#8
  | .getAlertPin => 0x25#8
  | .getAlertStatus => 0x26#8
  | .sleep => 0x27#8
  | .wakeup => 0x28#8
  | .tcritLock => 0x29#8
  | .tcritUnlock => 0x2A#8
  | .windowLock => 0x2B#8
  | .windowUnlock => 0x2C#8
  | .getManufacturerId => 0x2D#8
  | .getDeviceId => 0x2E#8

/-- The field `A` of a command's word, reserved bits 0 (R61, R64). -/
def Instr.aBits : Instr → Byte
  | .write16 reg _ | .write8 reg _ | .read16 reg | .read8 reg => reg
  | .setLimit which => 0#6 ++ which
  | .decodeTemp _ | .decodeStatus _ | .encodeLimit | .init _ | .getTemperature | .setResolution _ | .alertEnable _ _ => 0#8
  | .getAlertPin | .getAlertStatus | .sleep | .wakeup | .tcritLock | .tcritUnlock | .windowLock | .windowUnlock => 0#8
  | .getManufacturerId | .getDeviceId => 0#8

/-- The field `D` of a command's word, reserved bits 0 (R61, R64). -/
def Instr.dBits : Instr → Half
  | .decodeTemp raw | .decodeStatus raw => raw
  | .write16 _ v => v
  | .write8 _ b => 0#8 ++ b
  | .init sla => 0#9 ++ sla
  | .setResolution code => 0#14 ++ code
  | .alertEnable hyst mode => 0#13 ++ mode ++ hyst
  | .encodeLimit | .read16 _ | .read8 _ | .getTemperature | .setLimit _ | .getAlertPin | .getAlertStatus => 0#16
  | .sleep | .wakeup | .tcritLock | .tcritUnlock | .windowLock | .windowUnlock => 0#16
  | .getManufacturerId | .getDeviceId => 0#16

/-- The encoder: the command word of a command (R60, R61, R64). -/
def encode (i : Instr) : Word := commandWord i.dBits i.aBits i.opcode

/-- One row of the opcode map: the word it must show under its mask (R62). -/
structure OpcodeRow where
  /-- `match(r)`: `OP` in bits 7:0 and zeros elsewhere. -/
  matchBits : Word
  /-- `mask(r)`: ones in bits 7:0 and in every reserved bit of the row. -/
  mask : Word
deriving DecidableEq, Repr

/-- The rows of spec/opcode_table.json, in its order (R61, R62). -/
def opcodeRows : List OpcodeRow :=
  [⟨0x00000001#32, 0x0000FFFF#32⟩,  -- DECODE_TEMP
   ⟨0x00000002#32, 0x0000FFFF#32⟩,  -- DECODE_STATUS
   ⟨0x00000003#32, 0xFFFFFFFF#32⟩,  -- ENCODE_LIMIT
   ⟨0x00000010#32, 0x000000FF#32⟩,  -- WRITE16
   ⟨0x00000011#32, 0xFF0000FF#32⟩,  -- WRITE8
   ⟨0x00000012#32, 0xFFFF00FF#32⟩,  -- READ16
   ⟨0x00000013#32, 0xFFFF00FF#32⟩,  -- READ8
   ⟨0x00000020#32, 0xFF80FFFF#32⟩,  -- INIT
   ⟨0x00000021#32, 0xFFFFFFFF#32⟩,  -- GET_TEMPERATURE
   ⟨0x00000022#32, 0xFFFCFFFF#32⟩,  -- SET_RESOLUTION
   ⟨0x00000023#32, 0xFFFFFCFF#32⟩,  -- SET_LIMIT, and CW[9:8] not 3
   ⟨0x00000024#32, 0xFFF8FFFF#32⟩,  -- ALERT_ENABLE
   ⟨0x00000025#32, 0xFFFFFFFF#32⟩,  -- GET_ALERT_PIN
   ⟨0x00000026#32, 0xFFFFFFFF#32⟩,  -- GET_ALERT_STATUS
   ⟨0x00000027#32, 0xFFFFFFFF#32⟩,  -- SLEEP
   ⟨0x00000028#32, 0xFFFFFFFF#32⟩,  -- WAKEUP
   ⟨0x00000029#32, 0xFFFFFFFF#32⟩,  -- TCRIT_LOCK
   ⟨0x0000002A#32, 0xFFFFFFFF#32⟩,  -- TCRIT_UNLOCK
   ⟨0x0000002B#32, 0xFFFFFFFF#32⟩,  -- WINDOW_LOCK
   ⟨0x0000002C#32, 0xFFFFFFFF#32⟩,  -- WINDOW_UNLOCK
   ⟨0x0000002D#32, 0xFFFFFFFF#32⟩,  -- GET_MANUFACTURER_ID
   ⟨0x0000002E#32, 0xFFFFFFFF#32⟩]  -- GET_DEVICE_ID

/-- R62: a word selects a row when it shows the row's match under the row's mask and, for SET_LIMIT, `A[1:0]` is not 3. -/
def selectsRow (cw : Word) (r : OpcodeRow) : Bool :=
  (cw &&& r.mask) == r.matchBits && (r.matchBits != 0x00000023#32 || cw.extractLsb' 8 2 != 3#2)

/-- The word on `cmd_word` for an instruction of the opcode table whose bits are `w`, every bit above `nbits` being 0. -/
def tableWord (nbits w : Nat) : Word := BitVec.ofNat 32 (w % 2 ^ nbits)

/-- The command the decoder reads from an instruction whose bits are `w` (the host's fixed name). -/
def decodeTableWord (nbits w : Nat) : Option Instr :=
  match decode (tableWord nbits w) with
  | .ok i => some i
  | .error _ => none

end Sys2Proof
end

