-- ==== Sys2Proof/Config.lean ====
section
/-! DEFINITION. The build parameters the spec leaves to an implementation (00_scope.md R7, 92_eei_decisions.md D10, D14).
`T_SETTLE` is a duration and the model has no time (R9), so it is no field here (assumption log 14). -/

namespace Sys2Proof

/-- `LIMIT_ROUNDING`, the increment rule of ENCODE_LIMIT (R7, R82, D10, conflict C4). -/
inductive LimitRounding where
  /-- The literal "increment by 1", the spec's default. -/
  | inc1
  /-- The next multiple of 4 sixteenths. -/
  | ceilQuarter
deriving DecidableEq, Repr

/-- The parameters of one build of the block. They are fixed: no step writes them. -/
structure Config where
  /-- `LIMIT_ROUNDING`. -/
  limitRounding : LimitRounding
  /-- `SLA_RESET`, the reset value of `SLA`. -/
  slaReset : SlaveAddr
deriving DecidableEq, Repr

/-- The values the spec takes: `LIMIT_ROUNDING` = INC1 and `SLA_RESET` = `0x18` (R7). -/
def defaultConfig : Config := { limitRounding := .inc1, slaReset := 0x18#7 }

end Sys2Proof
end

