-- ==== Sys2Proof/Machine/State.lean ====
section
/-! DEFINITION. The state of the block (10_state.md R20 to R37): its registers, its sequencing state, its parameters, the input
ports over time and the events its output ports carried; the reasons a step can stop; the state after reset. -/

namespace Sys2Proof.Machine

/-- `PHASE` (R28). -/
inductive Phase where
  /-- No command in progress; the command port is ready. -/
  | idle
  /-- A frame is being issued one bus primitive at a time. -/
  | run
  /-- A bus error occurred and the abort STOP is being issued. -/
  | abort
  /-- A SLEEP or WAKEUP write has completed and the block waits for TIMER. -/
  | settle
deriving DecidableEq, Repr

/-- A bus primitive as `bus_req` carries it (R90). -/
inductive Prim where
  /-- Start condition. -/
  | start
  /-- Repeated start condition. -/
  | restart
  /-- Stop condition. -/
  | stop
  /-- `WR(b)`: the master sends byte `b`. -/
  | wr (b : Byte)
  /-- `RD(ack)`: the master receives a byte and sends acknowledge (true) or not-acknowledge (false). -/
  | rd (ack : Bool)
deriving DecidableEq, Repr

/-- An answer of BUS to a primitive (R90). -/
inductive BusAnswer where
  | ok
  | ack
  | nack
  | data (b : Byte)
  | timeout
deriving DecidableEq, Repr

/-- One draw of BUS (R8: "an acknowledge bit, a data byte or a timeout"), before the primitive it answers gives it the response
shape of R90. -/
structure BusDraw where
  /-- The transport reports a timeout, or any other transport failure (R90). -/
  timeout : Bool
  /-- The addressed receiver does not acknowledge; no meaning but for `WR`. -/
  nack : Bool
  /-- The byte on the bus; no meaning but for `RD`. -/
  data : Byte
deriving DecidableEq, Repr

/-- The values of the input ports at one step (R34, R35). -/
structure Inputs where
  /-- `rst`. -/
  rst : Bool
  /-- `cmd_valid`. -/
  cmdValid : Bool
  /-- `cmd_word`. -/
  cmdWord : Word
  /-- `cmd_x`. -/
  cmdX : Word
  /-- `alert_in`, true meaning that at least one threshold is breached. -/
  alertIn : Bool
  /-- `bus_rsp`: none while BUS has not answered. -/
  busRsp : Option BusDraw
  /-- `settle_done`: none while TIMER answers no settle wait, else the number of the wait it answers (assumption log 10). -/
  settleDone : Option Nat
deriving DecidableEq, Repr

/-- What the output ports carried as events (R34, R35). -/
inductive Event where
  /-- One exchange of a bus primitive: `bus_req` and BUS's answer to it. -/
  | bus (p : Prim) (a : BusAnswer)
  /-- `settle_start`. -/
  | settleStart
  /-- `rsp_valid`, with `rsp_res`, `rsp_err` and `rsp_err_info`. -/
  | rsp (res : Word) (err : BitVec 3) (info : Byte)
deriving DecidableEq, Repr

/-- The register a read frame stores a byte into (R31, R92). -/
inductive RxReg where
  | rxh
  | rxl
deriving DecidableEq, Repr

/-- One place of a frame: the primitive and, for a read, where its byte goes (R92: `RD(1) -> RXH`). -/
structure Slot where
  prim : Prim
  dest : Option RxReg
deriving DecidableEq, Repr

/-- Why a frame failed: BUS_NACK or BUS_TIMEOUT (R93). -/
inductive BusFail where
  | nack
  | timeout
deriving DecidableEq, Repr

/-- The error kinds that end a command (R140). -/
inductive ErrKind where
  | busNack
  | busTimeout
  | invalidRegisterWidth
  | illegalCommand
deriving DecidableEq, Repr

/-- The block with its ports. -/
structure State where
  /-- `SLA[6:0]`, the slave address (R21). -/
  sla : SlaveAddr
  /-- `STAT[2:0]`, the cached alert status: bit 0 lower, 1 upper, 2 critical (R22). -/
  stat : BitVec 3
  /-- `STAT_V`, 1 when `STAT` holds a reading (R23). -/
  statV : BitVec 1
  /-- `RES[31:0]`, the result register (R24). -/
  res : Word
  /-- `ERR[2:0]`, the error kind of the last completed command (R25). -/
  err : BitVec 3
  /-- `ERR_INFO[7:0]`, its error information (R26). -/
  errInfo : Byte
  /-- `PHASE`, the control state (R28). -/
  phase : Phase
  /-- `CUR_CW[31:0]`, the command word latched at acceptance (R29). -/
  curCw : Word
  /-- `CUR_X[31:0]`, the limit operand latched at acceptance (R29). -/
  curX : Word
  /-- `FI[3:0]`, the index of the next primitive of the current frame (R30). -/
  fi : BitVec 4
  /-- `TN`, the number of the current transaction within the command (R30). -/
  tn : BitVec 1
  /-- `RXH[7:0]`, a received byte (R31). -/
  rxh : Byte
  /-- `RXL[7:0]`, a received byte (R31). -/
  rxl : Byte
  /-- `HOLD[15:0]`, the CONFIG value an RMW command read (R31). -/
  hold : Half
  /-- The failure to be raised once the abort STOP is answered (R144). DEDUCED, safe: the spec names no register for it
  (assumption log 6). -/
  pend : Option BusFail
  /-- How many settle waits have begun: the number of the latest one, by which TIMER's answer to it is told from the late answer to a
  wait that a reset abandoned (R160). No register of the block: a reset keeps it. DESIGN CHOICE, unsafe (assumption log 10). -/
  settleWaits : Nat
  /-- The build parameters `LIMIT_ROUNDING` and `SLA_RESET` (R7); no step writes them (assumption log 8). -/
  cfg : Config
  /-- The values the environment puts on the input ports, one record per step, the next step's first; where none is listed every
  port is inactive. DESIGN CHOICE, safe (assumption log 1). -/
  inputs : List Inputs
  /-- The events the output ports carried, newest first. DESIGN CHOICE, unsafe for a count of issued primitives
  across a reset (assumption log 5). -/
  out : List Event
deriving DecidableEq, Repr

/-- Why a step stops. -/
inductive Fault where
  /-- `PHASE`, `TN`, `FI`, `pend` and `CUR_CW` name no point of any command's rule. Raised by every meaning and by `step`, in states
  no run from reset reaches. DESIGN CHOICE, safe: the machine stops (assumption log 7). -/
  | strayControl
deriving DecidableEq, Repr

/-- Why an instruction is refused. -/
inductive Refusal where
  /-- An arm of `exec` without a meaning. No arm of this model answers with it; safe: the machine stops. -/
  | notModelled (mnemonic : String)
deriving DecidableEq, Repr

/-- What a step of the block answers. -/
abbrev Result := Host.Outcome State Fault Refusal

/-- The block right after reset with the default parameters (R36, R160), every input port inactive and no event emitted. -/
def State.reset : State where
  sla := 0x18#7
  stat := 0b000#3
  statV := 0#1
  res := 0x00000000#32
  err := 0#3
  errInfo := 0x00#8
  phase := .idle
  curCw := 0#32
  curX := 0#32
  fi := 0#4
  tn := 0#1
  rxh := 0#8
  rxl := 0#8
  hold := 0#16
  pend := none
  settleWaits := 0
  cfg := defaultConfig
  inputs := []
  out := []

end Sys2Proof.Machine
end

