-- ==== Sys2Proof/Machine/Flags.lean ====
section
/-! DEFINITION. The block's only flags: the three status flags with their valid bit (10_state.md R22, R23, R27, 40_codec.md R81)
and the error kind with its information (R25, R26, 60_exceptions.md R140). -/

namespace Sys2Proof.Machine

/-- `DecodeStatus(raw)` (R81): bit 2 critical = `raw[15]`, bit 1 upper = `raw[14]`, bit 0 lower = `raw[13]`. -/
def statusFlags (raw : Half) : BitVec 3 := raw.extractLsb' 15 1 ++ raw.extractLsb' 14 1 ++ raw.extractLsb' 13 1

/-- The result word of GET_ALERT_STATUS: `zext_32({STAT_V, STAT})` (R117). -/
def statusWord (statV : BitVec 1) (stat : BitVec 3) : Word := (statV ++ stat).setWidth 32

/-- The code of an error kind in `ERR` (R25, R140). -/
def errCode : ErrKind → BitVec 3
  | .busNack => 1#3
  | .busTimeout => 2#3
  | .invalidRegisterWidth => 3#3
  | .illegalCommand => 4#3

/-- The error kind a failed frame raises (R93, R140). -/
def failKind : BusFail → ErrKind
  | .nack => .busNack
  | .timeout => .busTimeout

/-- `ERR_INFO` of a bus error: `{0b000, TN, FI}` (R95, R140). -/
def busErrInfo (tn : BitVec 1) (fi : BitVec 4) : Byte := 0#3 ++ tn ++ fi

end Sys2Proof.Machine
end

