-- ==== Sys2Proof/Machine/Operands.lean ====
section
/-! DEFINITION. The value formats and functions the commands compute with: zero extension into `RES` (30_encoding.md R66), the
temperature decoder (40_codec.md R80), the limit encoder (R82), the device register map and its widths (20_memory.md R40, R42),
the limit selector (42_operations.md R113), the alert configuration word (R70, R114) and the CONFIG bits (R50). -/

namespace Sys2Proof.Machine

/-- `zext_32(v)` (R11). -/
def zext32 {n : Nat} (v : BitVec n) : Word := v.setWidth 32

/-! ### Temperature decoder -/

/-- What `DecodeTemp` returns: the sign, the magnitude in sixteenths of a degree and the three flags (R69, R80). -/
structure TempReading where
  sign : BitVec 1
  mag : BitVec 13
  flags : BitVec 3
deriving DecidableEq, Repr

/-- `DecodeTemp(raw)` (R80), step by step as its pseudocode has it. The rational `256 - (hm*16 + lo/16)` and `hm*16 + lo/16` are
counted in sixteenths, exactly (D8). -/
def decodeTemp (raw : Half) : TempReading :=
  let hi : Byte := raw.extractLsb' 8 8
  let lo : Byte := raw.extractLsb' 0 8
  let hm : BitVec 5 := hi.extractLsb' 0 5
  if hm.getLsbD 4 then
    let cleared := hm &&& 0b01111#5
    { sign := 1#1, mag := BitVec.ofNat 13 (16 * 256 - (16 * (cleared.toNat * 16) + lo.toNat)), flags := statusFlags raw }
  else
    { sign := 0#1, mag := BitVec.ofNat 13 (16 * (hm.toNat * 16) + lo.toNat), flags := statusFlags raw }

/-- `RES` of DECODE_TEMP and GET_TEMPERATURE: `zext_32({flags, 0b00, s, M})` (R66, R80). -/
def tempResult (t : TempReading) : Word := zext32 (t.flags ++ 0b00#2 ++ t.sign ++ t.mag)

/-! ### Limit encoder -/

/-- `n`: the operand in sixteenths of a degree, truncated toward zero (R82, D9). -/
def limitSixteenths (x : Word) : Int := Int.tdiv (16 * x.toInt) 65536

/-- `n'`: the increment where the low 2 bits of `n` are not 0 (R82, D10). -/
def roundLimit (mode : LimitRounding) (n : Int) : Int :=
  let b := n % 4
  match mode with
  | .inc1 => if b ≠ 0 then n + 1 else n
  | .ceilQuarter => if b ≠ 0 then n + (4 - b) else n

/-- `EncodeLimit(X)`: the limit word `W = n' mod 2^16` (R68, R82, D11). -/
def encodeLimit (mode : LimitRounding) (x : Word) : Half := BitVec.ofInt 16 (roundLimit mode (limitSixteenths x))

/-! ### Device registers -/

/-- The width of a mapped register address (R42). -/
inductive RegWidth where
  | bits16
  | bits8
deriving DecidableEq, Repr

/-- `RegWidth(a)`: none for an unmapped address (R42). -/
def regWidth (a : Byte) : Option RegWidth :=
  if 0x01 ≤ a.toNat ∧ a.toNat ≤ 0x07 then some .bits16 else if a = 0x08#8 then some .bits8 else none

/-- CONFIG (R40). -/
def regConfig : Byte := 0x01#8

/-- T_UPPER (R40). -/
def regUpper : Byte := 0x02#8

/-- T_LOWER (R40). -/
def regLower : Byte := 0x03#8

/-- T_CRITICAL (R40). -/
def regCritical : Byte := 0x04#8

/-- AMBIENT_TEMPERATURE (R40). -/
def regAmbient : Byte := 0x05#8

/-- MANUFACTURER_ID (R40). -/
def regManufacturerId : Byte := 0x06#8

/-- DEVICE_ID (R40). -/
def regDeviceId : Byte := 0x07#8

/-- RESOLUTION (R40). -/
def regResolution : Byte := 0x08#8

/-- The limit register SET_LIMIT writes; none for the illegal selector 3 (R113). -/
def limitReg (which : BitVec 2) : Option Byte :=
  if which = 0#2 then some regUpper else if which = 1#2 then some regLower else if which = 2#2 then some regCritical else none

/-- The byte SET_RESOLUTION writes: `zext_8(code)` (R112, D24). -/
def resolutionByte (code : BitVec 2) : Byte := code.setWidth 8

/-- The CONFIG word of ALERT_ENABLE: `0x0019 | (mode << 2) | (hyst << 9)` (R70, R114). -/
def alertConfig (hyst : BitVec 2) (mode : BitVec 1) : Half :=
  0x0019#16 ||| (mode.setWidth 16 <<< 2) ||| (hyst.setWidth 16 <<< 9)

/-- SLEEP: set CONFIG bit 8 (R122). -/
def setSleep (v : Half) : Half := v ||| 0x0100#16

/-- WAKEUP: clear CONFIG bit 8 (R123). -/
def clearSleep (v : Half) : Half := v &&& 0xFEFF#16

/-- TCRIT_LOCK: set CONFIG bit 7 (R124). -/
def setTcritLock (v : Half) : Half := v ||| 0x0080#16

/-- TCRIT_UNLOCK: clear CONFIG bit 7 (R125). -/
def clearTcritLock (v : Half) : Half := v &&& 0xFF7F#16

/-- WINDOW_LOCK: set CONFIG bit 6 (R126). -/
def setWindowLock (v : Half) : Half := v ||| 0x0040#16

/-- WINDOW_UNLOCK: clear CONFIG bit 6 (R127). -/
def clearWindowLock (v : Half) : Half := v &&& 0xFFBF#16

end Sys2Proof.Machine
end

