-- ==== Sys2Proof/Machine/Frames.lean ====
section
/-! DEFINITION. The four frames (41_transactions.md R92, 30_encoding.md R71) and the answers BUS may give to each primitive (R90).
The slave address byte and the master's acknowledge of read bytes are the spec's own passages from general knowledge (G1, G2;
assumption log 12). -/

namespace Sys2Proof.Machine

/-- `SLA_W = {SLA, 0}` (R92). -/
def slaWrite (sla : SlaveAddr) : Byte := sla ++ 0#1

/-- `SLA_R = {SLA, 1}` (R92). -/
def slaRead (sla : SlaveAddr) : Byte := sla ++ 1#1

/-- A place of a frame that stores no byte. -/
def slot (p : Prim) : Slot := { prim := p, dest := none }

/-- A read whose byte goes to the register `r` (R92). -/
def slotInto (p : Prim) (r : RxReg) : Slot := { prim := p, dest := some r }

/-- The high byte `v[15:8]` (R10). -/
def hiByte (v : Half) : Byte := v.extractLsb' 8 8

/-- The low byte `v[7:0]` (R10). -/
def loByte (v : Half) : Byte := v.extractLsb' 0 8

/-- `Frame_W16(reg, v)` (R92); the high byte goes first (R44). -/
def frameW16 (sla : SlaveAddr) (reg : Byte) (v : Half) : List Slot :=
  [slot .start, slot (.wr (slaWrite sla)), slot (.wr reg), slot (.wr (hiByte v)), slot (.wr (loByte v)), slot .stop]

/-- `Frame_W8(reg, b)` (R92). -/
def frameW8 (sla : SlaveAddr) (reg : Byte) (b : Byte) : List Slot :=
  [slot .start, slot (.wr (slaWrite sla)), slot (.wr reg), slot (.wr b), slot .stop]

/-- `Frame_R16(reg)` (R92). -/
def frameR16 (sla : SlaveAddr) (reg : Byte) : List Slot :=
  [slot .start, slot (.wr (slaWrite sla)), slot (.wr reg), slot .restart, slot (.wr (slaRead sla)),
   slotInto (.rd true) .rxh, slotInto (.rd false) .rxl, slot .stop]

/-- `Frame_R8(reg)` (R92). -/
def frameR8 (sla : SlaveAddr) (reg : Byte) : List Slot :=
  [slot .start, slot (.wr (slaWrite sla)), slot (.wr reg), slot .restart, slot (.wr (slaRead sla)),
   slotInto (.rd false) .rxl, slot .stop]

/-- The answer a draw of BUS makes to a primitive, always one that R90 lists for it: `OK` or `TIMEOUT` to a condition, `ACK`, `NACK`
or `TIMEOUT` to `WR`, `DATA` or `TIMEOUT` to `RD` (assumption log 3). -/
def answerTo (p : Prim) (d : BusDraw) : BusAnswer :=
  match p with
  | .start | .restart | .stop => if d.timeout then .timeout else .ok
  | .wr _ => if d.timeout then .timeout else if d.nack then .nack else .ack
  | .rd _ => if d.timeout then .timeout else .data d.data

end Sys2Proof.Machine
end

