-- ==== Sys2Proof/Machine/Ops.lean ====
section
/-! DEFINITION. The operations every command is made of: the ports, acceptance (10_state.md R34), completion, ending a command with
an error (60_exceptions.md R143) after the abort of a failed frame (R144), the frame engine (41_transactions.md R93), one
transaction, the read-modify-write of CONFIG (42_operations.md R121), the settle wait (R120) and reset (70_reset_and_hazards.md
R160). The block has no return from an error (R148): `ERR` and `ERR_INFO` are cleared by `accept`. -/

namespace Sys2Proof.Machine

/-! ### Ports -/

/-- Every input port inactive: no reset, no command, no answer, no timer event. -/
def quietInputs : Inputs where
  rst := false
  cmdValid := false
  cmdWord := 0#32
  cmdX := 0#32
  alertIn := false
  busRsp := none
  settleDone := none

/-- The values on the input ports at this step. -/
def State.now (s : State) : Inputs := s.inputs.headD quietInputs

/-- The environment moves on to the values of the next step. -/
def advance (s : State) : State := { s with inputs := s.inputs.tail }

/-- A result, with the environment moved on where the block did not stop. -/
def advanced : Result → Result
  | .next s => .next (advance s)
  | .fault r => .fault r
  | .refused r => .refused r

/-- The output ports carry an event. -/
def emit (e : Event) (s : State) : State := { s with out := e :: s.out }

/-- The host presents the word `w` at an idle block that is not in reset: what `State.withFetchWord` does (assumption log 2). -/
def presentWord (w : Word) (s : State) : State :=
  { s with phase := .idle, inputs := { s.now with rst := false, cmdValid := true, cmdWord := w } :: s.inputs.tail }

/-! ### Commands begin and end -/

/-- A command is accepted: `CUR_CW <- cmd_word`, `CUR_X <- cmd_x`, `ERR <- 0`, `ERR_INFO <- 0` (R34), `FI` and `TN` <- 0 (R30). An
illegal word is latched too (DEDUCED, unsafe: assumption log 15). -/
def accept (s : State) : State :=
  { s with curCw := s.now.cmdWord, curX := s.now.cmdX, err := 0#3, errInfo := 0#8, fi := 0#4, tn := 0#1 }

/-- The command ends with its response (R34): the `rsp_valid` event carries `RES`, `ERR` and `ERR_INFO`, and PHASE is IDLE. -/
def respond (s : State) : State := emit (.rsp s.res s.err s.errInfo) { s with phase := .idle }

/-- The command completes with the result `r` (R24, R66). -/
def complete (r : Word) (s : State) : State := respond { s with res := r }

/-- `raise E(info)` (R143): `RES <- 0`, `ERR <- code(E)`, `ERR_INFO <- info`, `rsp_valid`, PHASE <- IDLE; nothing is rolled back. -/
def raiseError (k : ErrKind) (info : Byte) (s : State) : State :=
  respond { s with res := 0#32, err := errCode k, errInfo := info, pend := none }

/-- The word selects no row of the opcode map: ILLEGAL_COMMAND with `ERR_INFO` = 0 (R62, R141). -/
def rejectWord (s : State) : Result := .next (raiseError .illegalCommand 0#8 s)

/-- The width check failed: INVALID_REGISTER_WIDTH with `ERR_INFO` = 0, no primitive issued (R91, R142). -/
def rejectWidth (s : State) : Result := .next (raiseError .invalidRegisterWidth 0#8 s)

/-- Reset (R36, R160): every register at its reset value, a command in progress abandoned with no event and no primitive. The
parameters, the environment, the number of settle waits begun and what the ports have carried are not the block's registers. -/
def resetBlock (s : State) : State :=
  { State.reset with sla := s.cfg.slaReset, settleWaits := s.settleWaits, cfg := s.cfg, inputs := s.inputs, out := s.out }

/-! ### Frame engine -/

/-- A transaction starts its frame: PHASE <- RUN, `FI` <- 0 (R93). -/
def startFrame (s : State) : State := { s with phase := .run, fi := 0#4 }

/-- The byte of a `DATA` answer is stored in the register the frame names (R31, R93). -/
def storeRx (dest : Option RxReg) (b : Byte) (s : State) : State :=
  match dest with
  | some .rxh => { s with rxh := b }
  | some .rxl => { s with rxl := b }
  | none => s

/-- The value of a 16-bit read: `{RXH, RXL}` (R44, R95). -/
def rxWord (s : State) : Half := s.rxh ++ s.rxl

/-- The frame failed at the primitive `p` with index `FI` (R144): a failed final STOP raises at once; before any other failure is
raised, PHASE <- ABORT and one STOP is issued. -/
def failFrame (f : BusFail) (p : Prim) (s : State) : State :=
  if p = .stop then raiseError (failKind f) (busErrInfo s.tn s.fi) s else { s with phase := .abort, pend := some f }

/-- `FI <- FI + 1`; when `FI` reaches the frame's length the transaction has completed and `done` follows (R93). -/
def nextSlot (len : Nat) (done : State → State) (s : State) : State :=
  let s' := { s with fi := s.fi + 1#4 }
  if s'.fi.toNat = len then done s' else s'

/-- BUS has given the answer `a` to the primitive of the place `c` (R93). -/
def exchange (len : Nat) (done : State → State) (c : Slot) (a : BusAnswer) (s : State) : State :=
  let s' := emit (.bus c.prim a) s
  match a with
  | .timeout => failFrame .timeout c.prim s'
  | .nack => failFrame .nack c.prim s'
  | .data b => nextSlot len done (storeRx c.dest b s')
  | .ok | .ack => nextSlot len done s'

/-- One step of the frame `F` (R93): issue `F[FI]`, wait for BUS's answer, and act on it. -/
def frameStep (F : List Slot) (done : State → State) (s : State) : Result :=
  match F[s.fi.toNat]? with
  | none => .fault .strayControl
  | some c =>
    match s.now.busRsp with
    | none => .next s
    | some d => .next (exchange F.length done c (answerTo c.prim d) s)

/-- The abort STOP (R144): its answer is ignored, then the pending error is raised with `{0b000, TN, FI}`. -/
def abortStep (s : State) : Result :=
  match s.pend with
  | none => .fault .strayControl
  | some f =>
    match s.now.busRsp with
    | none => .next s
    | some d => .next (raiseError (failKind f) (busErrInfo s.tn s.fi) (emit (.bus .stop (answerTo .stop d)) s))

/-! ### Shapes of commands -/

/-- A command that issues no primitive: it does all it does at its acceptance (R80 to R82, R110, R116, R117). -/
def immediate (f : State → State) (s : State) : Result :=
  match s.phase with
  | .idle => .next (f s)
  | .run | .abort | .settle => .fault .strayControl

/-- A command of one transaction with the frame `F`, and `done` once the frame has completed (R93 to R95). -/
def transaction (F : List Slot) (done : State → State) (s : State) : Result :=
  match s.phase with
  | .idle => .next (startFrame s)
  | .run => frameStep F done s
  | .abort => abortStep s
  | .settle => .fault .strayControl

/-- A raw transaction: the width check comes before the first primitive (R91, R104). -/
def rawTransaction (width : RegWidth) (reg : Byte) (F : List Slot) (done : State → State) (s : State) : Result :=
  if s.phase = .idle ∧ regWidth reg ≠ some width then rejectWidth s else transaction F done s

/-- The read of an RMW command has completed: `HOLD` takes the value read and the write transaction starts (R30, R121). -/
def startWrite (s : State) : State := startFrame { s with hold := rxWord s, tn := 1#1 }

/-- `RMW(f)` (R121): read CONFIG into `HOLD`, write `f(HOLD)` back, `RES <- zext_32(f(HOLD))`; then `done`.
`RES` is written before a settle wait (DEDUCED, unsafe: assumption log 9). -/
def readModifyWrite (f : Half → Half) (done : State → State) (s : State) : Result :=
  match s.phase with
  | .idle => .next (startFrame s)
  | .run =>
    if s.tn = 0#1 then frameStep (frameR16 s.sla regConfig) startWrite s
    else frameStep (frameW16 s.sla regConfig (f s.hold)) (fun t => done { t with res := zext32 (f t.hold) }) s
  | .abort => abortStep s
  | .settle => .fault .strayControl

/-- `WaitSettle()` begins: PHASE <- SETTLE and `settle_start` (R120); the wait takes the next number. -/
def startSettle (s : State) : State := emit .settleStart { s with phase := .settle, settleWaits := s.settleWaits + 1 }

/-- TIMER answers the latest settle wait. An answer to an earlier one is the late `settle_done` of a wait that a reset abandoned, which
is ignored (R160; that answers are told apart by number is a DESIGN CHOICE, unsafe: assumption log 10). -/
def settleAnswered (s : State) : Bool := s.now.settleDone == some s.settleWaits

/-- In SETTLE: hold until TIMER answers this wait, then the command completes (R120). -/
def settleStep (s : State) : Result := if settleAnswered s then .next (respond s) else .next s

/-- `RMW(f); WaitSettle()` (R122, R123). -/
def readModifyWriteSettle (f : Half → Half) (s : State) : Result :=
  match s.phase with
  | .settle => settleStep s
  | .idle | .run | .abort => readModifyWrite f startSettle s

end Sys2Proof.Machine
end

