-- ==== Sys2Proof/Machine/Codec.lean ====
section
/-! DEFINITION. The codec commands (40_codec.md): pure, complete at acceptance, no bus primitive, `STAT` and `STAT_V` unchanged. -/

namespace Sys2Proof.Machine

/-- DECODE_TEMP (R80). -/
def execDecodeTemp (raw : Half) (s : State) : Result := immediate (complete (tempResult (decodeTemp raw))) s

/-- DECODE_STATUS (R81). -/
def execDecodeStatus (raw : Half) (s : State) : Result := immediate (complete (zext32 (statusFlags raw))) s

/-- ENCODE_LIMIT (R82): the operand is `CUR_X`. -/
def execEncodeLimit (s : State) : Result := immediate (complete (zext32 (encodeLimit s.cfg.limitRounding s.curX))) s

end Sys2Proof.Machine
end

