-- ==== Sys2Proof/Machine/Operation.lean ====
section
/-! DEFINITION. The device operations (42_operations.md R110 to R129). -/

namespace Sys2Proof.Machine

/-- INIT (R110): `SLA <- sla; RES <- 0`. -/
def execInit (sla : SlaveAddr) (s : State) : Result := immediate (fun t => complete 0#32 { t with sla := sla }) s

/-- The status cache takes the flags of a reading: `STAT <- raw[15:13]; STAT_V <- 1` (R22, R23, R111). -/
def refreshStatus (raw : Half) (s : State) : State := { s with stat := statusFlags raw, statV := 1#1 }

/-- GET_TEMPERATURE (R111). -/
def execGetTemperature (s : State) : Result :=
  transaction (frameR16 s.sla regAmbient)
    (fun t => complete (tempResult (decodeTemp (rxWord t))) (refreshStatus (rxWord t) t)) s

/-- SET_RESOLUTION (R112). -/
def execSetResolution (code : BitVec 2) (s : State) : Result :=
  transaction (frameW8 s.sla regResolution (resolutionByte code)) (complete (zext32 (resolutionByte code))) s

/-- SET_LIMIT (R113): the operand is `CUR_X`, held through the command (R29). The selector 3 is illegal (R141). -/
def execSetLimit (which : BitVec 2) (s : State) : Result :=
  match limitReg which with
  | none => rejectWord s
  | some reg =>
    let w := encodeLimit s.cfg.limitRounding s.curX
    transaction (frameW16 s.sla reg w) (complete (zext32 w)) s

/-- ALERT_ENABLE (R114, R115): a full overwrite of CONFIG, with no read. -/
def execAlertEnable (hyst : BitVec 2) (mode : BitVec 1) (s : State) : Result :=
  transaction (frameW16 s.sla regConfig (alertConfig hyst mode)) (complete (zext32 (alertConfig hyst mode))) s

/-- GET_ALERT_PIN (R116): `alert_in` sampled at the step the command is accepted. -/
def execGetAlertPin (s : State) : Result := immediate (complete (zext32 (BitVec.ofBool s.now.alertIn))) s

/-- GET_ALERT_STATUS (R117): the cached status. -/
def execGetAlertStatus (s : State) : Result := immediate (complete (statusWord s.statV s.stat)) s

/-- SLEEP (R122). -/
def execSleep (s : State) : Result := readModifyWriteSettle setSleep s

/-- WAKEUP (R123). -/
def execWakeup (s : State) : Result := readModifyWriteSettle clearSleep s

/-- TCRIT_LOCK (R124). -/
def execTcritLock (s : State) : Result := readModifyWrite setTcritLock respond s

/-- TCRIT_UNLOCK (R125). -/
def execTcritUnlock (s : State) : Result := readModifyWrite clearTcritLock respond s

/-- WINDOW_LOCK (R126). -/
def execWindowLock (s : State) : Result := readModifyWrite setWindowLock respond s

/-- WINDOW_UNLOCK (R127). -/
def execWindowUnlock (s : State) : Result := readModifyWrite clearWindowLock respond s

/-- GET_MANUFACTURER_ID (R128). -/
def execGetManufacturerId (s : State) : Result :=
  transaction (frameR16 s.sla regManufacturerId) (fun t => complete (zext32 (rxWord t)) t) s

/-- GET_DEVICE_ID (R129). -/
def execGetDeviceId (s : State) : Result :=
  transaction (frameR16 s.sla regDeviceId) (fun t => complete (zext32 (rxWord t)) t) s

end Sys2Proof.Machine
end

