-- ==== Sys2Proof/Machine/Transaction.lean ====
section
/-! DEFINITION. The raw transaction commands (41_transactions.md R100 to R104). -/

namespace Sys2Proof.Machine

/-- WRITE16 (R100). -/
def execWrite16 (reg : Byte) (v : Half) (s : State) : Result :=
  rawTransaction .bits16 reg (frameW16 s.sla reg v) (complete (zext32 v)) s

/-- WRITE8 (R101). -/
def execWrite8 (reg b : Byte) (s : State) : Result :=
  rawTransaction .bits8 reg (frameW8 s.sla reg b) (complete (zext32 b)) s

/-- READ16 (R102): the result is `{RXH, RXL}`; `STAT` and `STAT_V` are unchanged. -/
def execRead16 (reg : Byte) (s : State) : Result :=
  rawTransaction .bits16 reg (frameR16 s.sla reg) (fun t => complete (zext32 (rxWord t)) t) s

/-- READ8 (R103): the result is `RXL`. -/
def execRead8 (reg : Byte) (s : State) : Result :=
  rawTransaction .bits8 reg (frameR8 s.sla reg) (fun t => complete (zext32 t.rxl) t) s

end Sys2Proof.Machine
end

