-- ==== Sys2Proof/Machine/Dispatch.lean ====
section
/-! DEFINITION. The meaning of each command: what the command `i` does at one step, in the phase the block is in (IDLE: the step
that accepts it). -/

namespace Sys2Proof.Machine

def exec (i : Instr) (s : State) : Host.Outcome State Fault Refusal :=
  match i with
  | .decodeTemp raw => Sys2Proof.Machine.execDecodeTemp raw s
  | .decodeStatus raw => Sys2Proof.Machine.execDecodeStatus raw s
  | .encodeLimit => Sys2Proof.Machine.execEncodeLimit s
  | .write16 reg v => Sys2Proof.Machine.execWrite16 reg v s
  | .write8 reg b => Sys2Proof.Machine.execWrite8 reg b s
  | .read16 reg => Sys2Proof.Machine.execRead16 reg s
  | .read8 reg => Sys2Proof.Machine.execRead8 reg s
  | .init sla => Sys2Proof.Machine.execInit sla s
  | .getTemperature => Sys2Proof.Machine.execGetTemperature s
  | .setResolution code => Sys2Proof.Machine.execSetResolution code s
  | .setLimit which => Sys2Proof.Machine.execSetLimit which s
  | .alertEnable hyst mode => Sys2Proof.Machine.execAlertEnable hyst mode s
  | .getAlertPin => Sys2Proof.Machine.execGetAlertPin s
  | .getAlertStatus => Sys2Proof.Machine.execGetAlertStatus s
  | .sleep => Sys2Proof.Machine.execSleep s
  | .wakeup => Sys2Proof.Machine.execWakeup s
  | .tcritLock => Sys2Proof.Machine.execTcritLock s
  | .tcritUnlock => Sys2Proof.Machine.execTcritUnlock s
  | .windowLock => Sys2Proof.Machine.execWindowLock s
  | .windowUnlock => Sys2Proof.Machine.execWindowUnlock s
  | .getManufacturerId => Sys2Proof.Machine.execGetManufacturerId s
  | .getDeviceId => Sys2Proof.Machine.execGetDeviceId s

end Sys2Proof.Machine
end

