-- ==== Sys2Proof/Machine/Command.lean ====
section
/-! DEFINITION. The command port's side of a step: reading the command word (30_encoding.md R62, 10_state.md R34) and running the
command it stands for; and the level outputs of the block (R34, R35). -/

namespace Sys2Proof.Machine

/-- The command that was accepted at this step runs, or its word is refused (R34, R141). -/
def runAccepted (s : State) : Result :=
  match decode s.curCw with
  | .ok i => exec i s
  | .error _ => rejectWord s

/-- The command in progress goes on; its word was checked at acceptance (R29, R141). -/
def runLatched (s : State) : Result :=
  match decode s.curCw with
  | .ok i => exec i s
  | .error _ => .fault .strayControl

/-- IDLE: a command is accepted where `cmd_valid` = 1 and runs at once; otherwise nothing happens (R34). -/
def idleStep (s : State) : Result := if s.now.cmdValid then runAccepted (accept s) else .next s

/-- What the block does at a step without reset. -/
def blockStep (s : State) : Result :=
  match s.phase with
  | .idle => idleStep s
  | .run | .abort | .settle => runLatched s

/-- `cmd_ready`: "1 exactly when PHASE = IDLE" (R34). -/
def cmdReady (s : State) : Bool := s.phase == .idle

/-- The frame a command is running in its current transaction; none for a command that issues no primitive (R92, R121). -/
def frameOf (i : Instr) (s : State) : Option (List Slot) :=
  match i with
  | .write16 reg v => some (frameW16 s.sla reg v)
  | .write8 reg b => some (frameW8 s.sla reg b)
  | .read16 reg => some (frameR16 s.sla reg)
  | .read8 reg => some (frameR8 s.sla reg)
  | .getTemperature => some (frameR16 s.sla regAmbient)
  | .setResolution code => some (frameW8 s.sla regResolution (resolutionByte code))
  | .setLimit which => (limitReg which).map fun reg => frameW16 s.sla reg (encodeLimit s.cfg.limitRounding s.curX)
  | .alertEnable hyst mode => some (frameW16 s.sla regConfig (alertConfig hyst mode))
  | .sleep => some (rmwFrame setSleep s)
  | .wakeup => some (rmwFrame clearSleep s)
  | .tcritLock => some (rmwFrame setTcritLock s)
  | .tcritUnlock => some (rmwFrame clearTcritLock s)
  | .windowLock => some (rmwFrame setWindowLock s)
  | .windowUnlock => some (rmwFrame clearWindowLock s)
  | .getManufacturerId => some (frameR16 s.sla regManufacturerId)
  | .getDeviceId => some (frameR16 s.sla regDeviceId)
  | .decodeTemp _ | .decodeStatus _ | .encodeLimit | .init _ | .getAlertPin | .getAlertStatus => none
where
  /-- The read frame of an RMW command, then its write frame (R121). -/
  rmwFrame (f : Half → Half) (s : State) : List Slot :=
    if s.tn = 0#1 then frameR16 s.sla regConfig else frameW16 s.sla regConfig (f s.hold)

/-- The primitive of the frame `F` at `FI`. -/
def primAt (F : Option (List Slot)) (s : State) : Option Prim := (F.bind (·[s.fi.toNat]?)).map Slot.prim

/-- `bus_req`: the primitive BUS is asked for, none where the block asks for none (R35): `F[FI]` in RUN, the abort STOP in ABORT. -/
def busReq (s : State) : Option Prim :=
  match s.phase with
  | .idle | .settle => none
  | .abort => some .stop
  | .run =>
    match decode s.curCw with
    | .ok i => primAt (frameOf i s) s
    | .error _ => none

end Sys2Proof.Machine
end

