-- ==== Sys2Proof/Machine/Step.lean ====
section
/-! DEFINITION. One step of the block: reset (R160), or what the block does with the values on its input ports; then the
environment moves on to the values of the next step (assumption log 1). -/

namespace Sys2Proof.Machine

/-- One step. `rst` = 1 overrides everything else (R160; DEDUCED, unsafe: assumption log 11). -/
def step (s : State) : Host.Outcome State Fault Refusal :=
  if s.now.rst then .next (advance (resetBlock s)) else advanced (blockStep s)

/-- The host presents the instruction whose bits are `w` to an idle block, so that the next step accepts and runs exactly it. -/
def State.withFetchWord (s : State) (nbits w : Nat) : State := presentWord (tableWord nbits w) s

end Sys2Proof.Machine
end

