-- ==== Sys2Proof/Safety.lean ====
section
/-! DEFINITION. What the statements speak of: the invariant of the block's control and registers, runs of steps, the behaviour of
BUS along a frame, and the events a run adds to the output ports. Nothing here is used by the machine. -/

namespace Sys2Proof.Machine

/-! ### Kinds of commands -/

/-- The commands made of two transactions (42_operations.md R121). -/
def isRmw : Instr → Bool
  | .sleep | .wakeup | .tcritLock | .tcritUnlock | .windowLock | .windowUnlock => true
  | .decodeTemp _ | .decodeStatus _ | .encodeLimit | .write16 _ _ | .write8 _ _ | .read16 _ | .read8 _ | .init _ => false
  | .getTemperature | .setResolution _ | .setLimit _ | .alertEnable _ _ | .getAlertPin | .getAlertStatus => false
  | .getManufacturerId | .getDeviceId => false

/-- The commands that end with a settle wait (R122, R123). -/
def isPower (i : Instr) : Bool := i == .sleep || i == .wakeup

/-- The commands of 40_codec.md. -/
def isCodec : Instr → Bool
  | .decodeTemp _ | .decodeStatus _ | .encodeLimit => true
  | .write16 _ _ | .write8 _ _ | .read16 _ | .read8 _ | .init _ | .getTemperature | .setResolution _ | .setLimit _ => false
  | .alertEnable _ _ | .getAlertPin | .getAlertStatus | .sleep | .wakeup | .tcritLock | .tcritUnlock => false
  | .windowLock | .windowUnlock | .getManufacturerId | .getDeviceId => false

/-- The width check of R91, for the commands that have one. -/
def widthOk : Instr → Bool
  | .write16 reg _ | .read16 reg => regWidth reg == some .bits16
  | .write8 reg _ | .read8 reg => regWidth reg == some .bits8
  | .decodeTemp _ | .decodeStatus _ | .encodeLimit | .init _ | .getTemperature | .setResolution _ | .setLimit _ => true
  | .alertEnable _ _ | .getAlertPin | .getAlertStatus | .sleep | .wakeup | .tcritLock | .tcritUnlock => true
  | .windowLock | .windowUnlock | .getManufacturerId | .getDeviceId => true

/-! ### The invariant -/

/-- The command `i` is at a point of its rule: in RUN a place of its frame, in ABORT a place that is not its STOP with the failure
pending, in SETTLE the wait of SLEEP or WAKEUP; `TN` = 1 only in an RMW command (R28, R30, R120, R144). -/
def pointOk (i : Instr) (s : State) : Bool :=
  widthOk i && (s.tn == 0#1 || isRmw i) &&
  match s.phase with
  | .idle => true
  | .run => s.pend == none && (primAt (frameOf i s) s).isSome
  | .abort => s.pend != none && (primAt (frameOf i s) s).isSome && primAt (frameOf i s) s != some .stop
  | .settle => s.pend == none && isPower i && s.tn == 1#1

/-- The control registers name a point of the command in progress; `ERR` and `ERR_INFO` are 0 while one is (R25, R34). -/
def controlOk (s : State) : Bool :=
  match s.phase with
  | .idle => s.pend == none
  | .run | .abort | .settle =>
    s.err == 0#3 && s.errInfo == 0#8 &&
    match decode s.curCw with
    | .ok i => pointOk i s
    | .error _ => false

/-- `ERR` is at most 4 (R25); `ERR_INFO[7:5]` = 0 and `ERR_INFO` = 0 unless `ERR` is a bus error (R26); `RES` = 0 beside an error (R24);
`STAT` = 0 while `STAT_V` = 0 (R22, R23). -/
def registersOk (s : State) : Bool :=
  decide (s.err.toNat ≤ 4) && s.errInfo.extractLsb' 5 3 == 0#3 &&
  (s.err == 1#3 || s.err == 2#3 || s.errInfo == 0#8) && (s.err == 0#3 || s.res == 0#32) &&
  (s.statV == 1#1 || s.stat == 0#3)

/-- The invariant every step keeps. -/
abbrev Inv (s : State) : Prop := controlOk s = true ∧ registersOk s = true

/-! ### Runs -/

/-- `n` steps, stopping at a fault or a refusal. -/
def runSteps : Nat → State → Result
  | 0, s => .next s
  | n + 1, s =>
    match step s with
    | .next t => runSteps n t
    | .fault r => .fault r
    | .refused r => .refused r

/-- The host presents the word `w` and does not reset the block. -/
def presents (w : Word) (c : Inputs) : Bool := !c.rst && c.cmdValid && c.cmdWord == w

/-- An answer that lets the frame go on (R93). -/
def accepted : BusAnswer → Bool
  | .ok | .ack | .data _ => true
  | .nack | .timeout => false

/-- At this step the block is not reset and BUS gives `p` an answer that lets the frame go on. -/
def servesOne (p : Prim) (c : Inputs) : Bool :=
  !c.rst && match c.busRsp with
  | some d => accepted (answerTo p d)
  | none => false

/-- BUS lets the primitives `ps` pass, one at each step of `ins`. -/
def serves : List Prim → List Inputs → Bool
  | [], [] => true
  | p :: ps, c :: ins => servesOne p c && serves ps ins
  | [], _ :: _ | _ :: _, [] => false

/-- The draw of BUS at a step (where BUS answers nothing, a draw of no meaning). -/
def drawAt (c : Inputs) : BusDraw := c.busRsp.getD { timeout := true, nack := true, data := 0#8 }

/-- The byte BUS puts on the bus at the `k`-th of these steps. -/
def byteAt (ins : List Inputs) (k : Nat) : Byte := (drawAt (ins.getD k quietInputs)).data

/-- The events of the exchanges of `ps`, one at each step of `ins`, newest first. -/
def exchanges (ps : List Prim) (ins : List Inputs) : List Event :=
  (List.zipWith (fun p c => Event.bus p (answerTo p (drawAt c))) ps ins).reverse

/-- Whether an event is a response. -/
def isRsp : Event → Bool
  | .rsp _ _ _ => true
  | .bus _ _ | .settleStart => false

/-- Whether an event is an exchange of a bus primitive. -/
def isBus : Event → Bool
  | .bus _ _ => true
  | .rsp _ _ _ | .settleStart => false

/-- Whether an event starts TIMER. -/
def isSettleStart : Event → Bool
  | .settleStart => true
  | .bus _ _ | .rsp _ _ _ => false

/-- The primitives of a write frame (41_transactions.md R92, `Frame_W16`). -/
def primsW16 (sla : SlaveAddr) (reg : Byte) (v : Half) : List Prim :=
  [.start, .wr (sla ++ 0#1), .wr reg, .wr (v.extractLsb' 8 8), .wr (v.extractLsb' 0 8), .stop]

/-- The primitives of `Frame_W8` (R92). -/
def primsW8 (sla : SlaveAddr) (reg b : Byte) : List Prim := [.start, .wr (sla ++ 0#1), .wr reg, .wr b, .stop]

/-- The primitives of `Frame_R16` (R92). -/
def primsR16 (sla : SlaveAddr) (reg : Byte) : List Prim :=
  [.start, .wr (sla ++ 0#1), .wr reg, .restart, .wr (sla ++ 1#1), .rd true, .rd false, .stop]

/-- The primitives of `Frame_R8` (R92). -/
def primsR8 (sla : SlaveAddr) (reg : Byte) : List Prim :=
  [.start, .wr (sla ++ 0#1), .wr reg, .restart, .wr (sla ++ 1#1), .rd false, .stop]

end Sys2Proof.Machine
end

