-- ==== Sys2Proof/Certificates/Slice0/Obligations.lean ====
section
/-! DEFINITION. The statements for the provers. A command's whole effect is stated twice: as the step of `exec` at which it completes,
and as a run of `step` from its acceptance to its response. `{ s with … }` is the frame: every register not named is unchanged.
What many statements share is said here: a step is one event whose port values head the list `inputs` (log 1); `out` records the events
(log 5); a draw of BUS takes the response shape of the primitive it answers (log 3); and the frames carry the address byte and the read
acknowledges that R92 marks as general knowledge (log 12). A docstring names the further log entries its statement rests on. -/

open Sys2Proof Sys2Proof.Machine

/-! ### Command words -/

/-- Decode and encode agree on every well-formed command, every operand at every value (30_encoding.md R60, R61, R64). -/
def Obligations.EncodedCommandDecodesToItself : Prop :=
  ∀ i : Instr, i.wf = true → decode (encode i) = .ok i

/-- A word the decoder accepts is the encoding of the command it gives, and that command is well formed: no bit of an accepted word is
dropped. -/
def Obligations.DecodedWordIsTheEncodingOfItsCommand : Prop :=
  ∀ (w : Word) (i : Instr), decode w = .ok i → i.wf = true ∧ encode i = w

/-- R62: a word is decoded exactly when it selects a row of the opcode map under the row's mask, and at most one row matches it. -/
def Obligations.WordDecodesExactlyWhenItSelectsARow : Prop :=
  (∀ w : Word, (∃ i, decode w = .ok i) ↔ ∃ r ∈ opcodeRows, selectsRow w r = true) ∧
  (∀ (w : Word) (j k : Nat) (r q : OpcodeRow), opcodeRows[j]? = some r → opcodeRows[k]? = some q →
    w &&& r.mask = r.matchBits → w &&& q.mask = q.matchBits → j = k)

/-- Words written out from the encodings of R61 and the vectors of 95_test_vectors.md decode to the commands they stand for. -/
def Obligations.WrittenOutWordsDecode : Prop :=
  decode 0x9C900001#32 = .ok (.decodeTemp 0x9C90#16) ∧ decode 0x01C00210#32 = .ok (.write16 0x02#8 0x01C0#16) ∧
  decode 0x00FF0811#32 = .ok (.write8 0x08#8 0xFF#8) ∧ decode 0x00190020#32 = .ok (.init 0x19#7) ∧
  decode 0x00000223#32 = .ok (.setLimit 2#2) ∧ decode 0x00070024#32 = .ok (.alertEnable 3#2 1#1) ∧
  decode 0x0000002E#32 = .ok .getDeviceId ∧ decode 0x00000323#32 = .error .limitSelector ∧
  decode 0x00800020#32 = .error .reservedBits ∧ decode 0x0000002F#32 = .error (.unknownOpcode 0x2F#8)

/-! ### Codec -/

/-- DECODE_TEMP completes at its acceptance with the sign, the magnitude by the closed form of R80 and the flags in the places R66
gives them, and changes nothing but `RES`. -/
def Obligations.DecodeTempReturnsSignMagnitudeAndFlags : Prop :=
  ∀ (s : State) (raw : Half), s.phase = .idle →
    ∃ r : Word, exec (.decodeTemp raw) s = .next { s with res := r, out := .rsp r s.err s.errInfo :: s.out } ∧
      (r.extractLsb' 0 13).toNat =
        (if raw.getLsbD 12 then 4096 - (raw.extractLsb' 0 12).toNat else (raw.extractLsb' 0 12).toNat) ∧
      r.extractLsb' 13 1 = raw.extractLsb' 12 1 ∧ r.extractLsb' 14 2 = 0#2 ∧
      r.extractLsb' 16 3 = raw.extractLsb' 13 3 ∧ r.extractLsb' 19 13 = 0#13

/-- R83: the signed temperature is the 13-bit two's-complement reading of bits 12:0, in degrees, and M/16 is its absolute value. -/
def Obligations.DecodedTemperatureIsTheTwosComplementReading : Prop :=
  ∀ raw : Half,
    let t := decodeTemp raw
    let reading : ℚ := ((raw.extractLsb' 0 13).toInt : ℚ) / 16
    (if t.sign = 1#1 then -(t.mag.toNat : ℚ) else (t.mag.toNat : ℚ)) / 16 = reading ∧ (t.mag.toNat : ℚ) / 16 = |reading|

/-- R69: the decoded word is the sign `raw[12]` and a magnitude in 0..4095 without and 1..4096 with the sign, where 4096 alone needs
the thirteenth bit. -/
def Obligations.DecodedMagnitudeRange : Prop :=
  ∀ raw : Half,
    let t := decodeTemp raw
    t.sign = raw.extractLsb' 12 1 ∧ (t.sign = 0#1 → t.mag.toNat ≤ 4095) ∧
    (t.sign = 1#1 → 1 ≤ t.mag.toNat ∧ t.mag.toNat ≤ 4096) ∧ (t.mag.getLsbD 12 = true ↔ t.mag.toNat = 4096) ∧
    (t.mag.toNat = 4096 ↔ raw.extractLsb' 0 13 = 0x1000#13)

/-- DECODE_STATUS completes at its acceptance with bit 0 lower, bit 1 upper, bit 2 critical and every other bit 0. -/
def Obligations.DecodeStatusReturnsTheThreeFlags : Prop :=
  ∀ (s : State) (raw : Half), s.phase = .idle →
    ∃ r : Word, exec (.decodeStatus raw) s = .next { s with res := r, out := .rsp r s.err s.errInfo :: s.out } ∧
      r.getLsbD 0 = raw.getLsbD 13 ∧ r.getLsbD 1 = raw.getLsbD 14 ∧ r.getLsbD 2 = raw.getLsbD 15 ∧ r.extractLsb' 3 29 = 0#29

/-- ENCODE_LIMIT completes at its acceptance with `W = n' mod 2^16`, where `n` is sixteenths of `CUR_X` truncated toward zero (written
here as R82's `sign(q) * (abs(q) div 4096)`) and `n'` follows the rounding mode the state names (R82). -/
def Obligations.EncodeLimitReturnsTheLimitWord : Prop :=
  ∀ s : State, s.phase = .idle →
    let q := s.curX.toInt
    let n := q.sign * ((q.natAbs / 4096 : ℕ) : ℤ)
    let n' := if n % 4 = 0 then n else if s.cfg.limitRounding = .inc1 then n + 1 else n + (4 - n % 4)
    ∃ r : Word, exec .encodeLimit s = .next { s with res := r, out := .rsp r s.err s.errInfo :: s.out } ∧
      ((r.extractLsb' 0 16).toNat : ℤ) = n' % 65536 ∧ r.extractLsb' 16 16 = 0#16

/-- R68: the limit word is `n' mod 2^16`; its two's-complement value is `n'` when that lies in the 16-bit range; under INC1 its low two
bits can be nonzero, as for 27.1 °C; under CEIL_QUARTER they are always 0. -/
def Obligations.LimitWordFormat : Prop :=
  (∀ (m : LimitRounding) (x : Word), ((encodeLimit m x).toNat : ℤ) = roundLimit m (limitSixteenths x) % 65536) ∧
  (∀ (m : LimitRounding) (x : Word), -32768 ≤ roundLimit m (limitSixteenths x) → roundLimit m (limitSixteenths x) ≤ 32767 →
    (encodeLimit m x).toInt = roundLimit m (limitSixteenths x)) ∧
  encodeLimit .inc1 0x001B199A#32 = 0x01B2#16 ∧ (encodeLimit .inc1 0x001B199A#32).extractLsb' 0 2 ≠ 0#2 ∧
  (∀ x : Word, (encodeLimit .ceilQuarter x).extractLsb' 0 2 = 0#2)

/-- 40_codec.md R84 (a), (e): the rounding moves the truncated count up by at most 1 (INC1) or 3 (CEIL_QUARTER), and not at all exactly
on a quarter degree. -/
def Obligations.LimitRoundingStaysNearTheTruncatedCount : Prop :=
  ∀ n : ℤ,
    (roundLimit .inc1 n = n ∨ roundLimit .inc1 n = n + 1) ∧
    (n ≤ roundLimit .ceilQuarter n ∧ roundLimit .ceilQuarter n ≤ n + 3 ∧ roundLimit .ceilQuarter n % 4 = 0) ∧
    (roundLimit .inc1 n = n ↔ n % 4 = 0) ∧ (roundLimit .ceilQuarter n = n ↔ n % 4 = 0)

/-- 40_codec.md R84 (b): without wrap, the limit word does not decrease with the operand, in both modes. -/
def Obligations.EncodeLimitIsMonotoneWithoutWrap : Prop :=
  ∀ (m : LimitRounding) (x y : Word), x.toInt ≤ y.toInt →
    -32768 ≤ roundLimit m (limitSixteenths x) → roundLimit m (limitSixteenths y) ≤ 32767 →
    (encodeLimit m x).toInt ≤ (encodeLimit m y).toInt

/-- 40_codec.md R84 (c): a quarter-degree operand in range is encoded exactly, and encoding the decoded limit again gives the same word,
in both modes. -/
def Obligations.QuarterDegreeLimitsEncodeExactly : Prop :=
  ∀ (m : LimitRounding) (x : Word), x.toInt % 16384 = 0 → -32768 * 4096 ≤ x.toInt → x.toInt ≤ 32767 * 4096 →
    (encodeLimit m x).toInt * 4096 = x.toInt ∧
    encodeLimit m (BitVec.ofInt 32 ((encodeLimit m x).toInt * 4096)) = encodeLimit m x

/-- 40_codec.md R84 (d): CEIL_QUARTER is idempotent under encoding its decoded word again, for every operand; INC1 is not, as 27.1 °C
shows. -/
def Obligations.CeilQuarterIsIdempotentAndInc1IsNot : Prop :=
  (∀ x : Word, encodeLimit .ceilQuarter (BitVec.ofInt 32 ((encodeLimit .ceilQuarter x).toInt * 4096)) = encodeLimit .ceilQuarter x) ∧
  encodeLimit .inc1 (BitVec.ofInt 32 ((encodeLimit .inc1 0x001B199A#32).toInt * 4096)) = 0x01B3#16 ∧
  encodeLimit .inc1 0x001B199A#32 = 0x01B2#16

/-- R85: the codec commands are total: each completes for every operand, with no error, from every idle state. -/
def Obligations.CodecCommandsNeverFail : Prop :=
  ∀ (i : Instr) (s : State), isCodec i = true → s.phase = .idle →
    ∃ t, exec i (accept s) = .next t ∧ t.phase = .idle ∧ t.err = 0#3 ∧ t.errInfo = 0#8

/-! ### The command port -/

/-- An idle block accepts the command presented and runs it: the step is `exec` of the decoded command after the latches of R34 and
R30; then the environment moves on. -/
def Obligations.AcceptingStepRunsTheDecodedCommand : Prop :=
  ∀ (s : State) (i : Instr), s.phase = .idle → s.now.rst = false → s.now.cmdValid = true → decode s.now.cmdWord = .ok i →
    step s = advanced (exec i
      { s with curCw := s.now.cmdWord, curX := s.now.cmdX, err := 0#3, errInfo := 0#8, fi := 0#4, tn := 0#1 })

/-- A busy block goes on with the command whose word it latched: the step is `exec` of that command; then the environment moves on. -/
def Obligations.BusyStepRunsTheLatchedCommand : Prop :=
  ∀ (s : State) (i : Instr), s.phase ≠ .idle → s.now.rst = false → decode s.curCw = .ok i → step s = advanced (exec i s)

/-- An idle block that no command is presented to does nothing, whatever BUS and TIMER do: a late `settle_done` is ignored. -/
def Obligations.IdleBlockWaits : Prop :=
  ∀ s : State, s.phase = .idle → s.now.rst = false → s.now.cmdValid = false → step s = .next { s with inputs := s.inputs.tail }

/-- A word that selects no row of the opcode map ends at once with ILLEGAL_COMMAND: no primitive, and no change but the latches of the
acceptance, `RES`, `ERR`, `ERR_INFO` and the response. That the latches take such a word too is the model's reading (log 15). -/
def Obligations.IllegalWordEndsAtOnce : Prop :=
  ∀ s : State, s.phase = .idle → s.pend = none → s.now.rst = false → s.now.cmdValid = true →
    (∀ r ∈ opcodeRows, selectsRow s.now.cmdWord r = false) →
    step s = .next { s with
      curCw := s.now.cmdWord, curX := s.now.cmdX, fi := 0#4, tn := 0#1, res := 0#32, err := 4#3, errInfo := 0#8,
      inputs := s.inputs.tail, out := .rsp 0#32 4#3 0#8 :: s.out }

/-- The command port has no effect on a busy block (R29). -/
def Obligations.CommandPortHasNoEffectWhileBusy : Prop :=
  ∀ (s : State) (c : Inputs) (rest : List Inputs) (v : Bool) (w x : Word), s.phase ≠ .idle →
    step { s with inputs := c :: rest } = step { s with inputs := { c with cmdValid := v, cmdWord := w, cmdX := x } :: rest }

/-- Every command that is accepted or goes on responds exactly when the block becomes idle, once, with the three response registers. -/
def Obligations.EveryCommandRespondsOnceWhenItEnds : Prop :=
  ∀ s t : State, s.now.rst = false → (s.phase ≠ .idle ∨ s.now.cmdValid = true) → step s = .next t →
    t.out.countP isRsp = s.out.countP isRsp + (if t.phase = .idle then 1 else 0) ∧
    (t.phase = .idle → t.out.head? = some (.rsp t.res t.err t.errInfo))

/-! ### The width check -/

/-- R142: a 16-bit transaction at an address outside `0x01..0x07` and an 8-bit transaction at one that is not `0x08` end with
INVALID_REGISTER_WIDTH before any primitive; so the unmapped addresses fail both. -/
def Obligations.WidthMismatchIsRefusedBeforeAnyPrimitive : Prop :=
  ∀ (s : State) (reg : Byte), s.phase = .idle → s.pend = none →
    let refused : State := { s with res := 0#32, err := 3#3, errInfo := 0#8, out := .rsp 0#32 3#3 0#8 :: s.out }
    (¬ (1 ≤ reg.toNat ∧ reg.toNat ≤ 7) → ∀ v, exec (.write16 reg v) s = .next refused) ∧
    (¬ (1 ≤ reg.toNat ∧ reg.toNat ≤ 7) → exec (.read16 reg) s = .next refused) ∧
    (reg.toNat ≠ 8 → ∀ b, exec (.write8 reg b) s = .next refused) ∧
    (reg.toNat ≠ 8 → exec (.read8 reg) s = .next refused)

/-- The model's choice (log 19, DESIGN CHOICE): `exec` of the term `setLimit 3`, which no word decodes to, answers as R141 has the block
answer the word of selector 3. The rule speaks of that word, and IllegalWordEndsAtOnce states it of the word. -/
def Obligations.LimitSelectorThreeIsIllegal : Prop :=
  ∀ s : State, s.phase = .idle → s.pend = none →
    exec (.setLimit 3#2) s =
      .next { s with res := 0#32, err := 4#3, errInfo := 0#8, out := .rsp 0#32 4#3 0#8 :: s.out }

/-! ### The frame engine -/

/-- A command with a frame starts it at its acceptance: PHASE = RUN and `FI` = 0 (R93). That the accepting step does only this, and
exchanges no primitive, is the model's choice (log 4, DESIGN CHOICE): the acceptance is a step of its own. -/
def Obligations.FramedCommandStartsItsFrame : Prop :=
  ∀ (i : Instr) (s : State) (F : List Slot), s.phase = .idle → widthOk i = true → frameOf i s = some F →
    exec i s = .next { s with phase := .run, fi := 0#4 }

/-- R93, a primitive before the frame's end that BUS lets pass: `FI` moves on by one, a received byte goes to the register the frame
names, and nothing else changes. -/
def Obligations.AnsweredPrimitiveAdvancesTheFrame : Prop :=
  ∀ (i : Instr) (s : State) (F : List Slot) (c : Slot) (d : BusDraw), s.phase = .run → frameOf i s = some F →
    F[s.fi.toNat]? = some c → s.fi.toNat + 1 < F.length → s.now.busRsp = some d → accepted (answerTo c.prim d) = true →
    exec i s = .next { s with
      fi := BitVec.ofNat 4 (s.fi.toNat + 1),
      rxh := if c.dest = some .rxh then d.data else s.rxh,
      rxl := if c.dest = some .rxl then d.data else s.rxl,
      out := .bus c.prim (answerTo c.prim d) :: s.out }

/-- R93, R144: a primitive other than the final STOP that BUS refuses sends the block to ABORT with the failure pending. `pend` is the
model's own field (log 6). -/
def Obligations.RefusedPrimitiveEntersAbort : Prop :=
  ∀ (i : Instr) (s : State) (F : List Slot) (c : Slot) (d : BusDraw), s.phase = .run → frameOf i s = some F →
    F[s.fi.toNat]? = some c → c.prim ≠ .stop → s.now.busRsp = some d → accepted (answerTo c.prim d) = false →
    exec i s = .next { s with
      phase := .abort,
      pend := some (if answerTo c.prim d = .nack then .nack else .timeout),
      out := .bus c.prim (answerTo c.prim d) :: s.out }

/-- A block that BUS has not answered waits where it is, in RUN and in ABORT (R35, U5). That nothing at all changes meanwhile is the
model's reading (log 18). -/
def Obligations.UnansweredBlockWaits : Prop :=
  ∀ (i : Instr) (s : State), (frameOf i s).isSome = true → s.now.busRsp = none →
    ((s.phase = .run ∧ (primAt (frameOf i s) s).isSome = true) ∨ (s.phase = .abort ∧ s.pend ≠ none)) →
    exec i s = .next s

/-- The abort STOP: whatever BUS answers, the command then ends with the pending error and `ERR_INFO` = `{0b000, TN, FI}` (R144). The kind
is held in `pend` meanwhile (log 6), and `FI` and `TN` keep their values in IDLE (log 17): the model's reading. -/
def Obligations.AbortStopEndsTheCommand : Prop :=
  ∀ (i : Instr) (s : State) (f : BusFail) (d : BusDraw), (frameOf i s).isSome = true → s.phase = .abort → s.pend = some f →
    s.now.busRsp = some d →
    let code : BitVec 3 := if f = .nack then 1#3 else 2#3
    let info : Byte := 0#3 ++ s.tn ++ s.fi
    exec i s = .next { s with
      phase := .idle, pend := none, res := 0#32, err := code, errInfo := info,
      out := .rsp 0#32 code info :: .bus .stop (if d.timeout then .timeout else .ok) :: s.out }

/-- R94, R144: a frame that fails at index `k` ends its command, for every command with a frame, in either transaction of an RMW
command. Before the final STOP: one abort STOP, its answer ignored; at the final STOP: no second STOP. `ERR` and `ERR_INFO` name the
failure, `RES` is 0, no other primitive is issued, and every register but the received bytes and the frame index is unchanged. The model's
reading: `FI` stays at `k` and `TN` as it was in IDLE (log 17, DEDUCED), and the failure waits in `pend` for the abort STOP (log 6). -/
def Obligations.FailedFrameEndsItsCommand : Prop :=
  ∀ (i : Instr) (s : State) (F : List Slot) (k : Nat) (c : Slot) (ins rest : List Inputs) (bad z : Inputs) (d e : BusDraw),
    s.phase = .run → s.fi = 0#4 → s.pend = none → decode s.curCw = .ok i → frameOf i s = some F → F[k]? = some c →
    serves ((F.take k).map Slot.prim) ins = true → bad.rst = false → bad.busRsp = some d →
    accepted (answerTo c.prim d) = false →
    let code : BitVec 3 := if answerTo c.prim d = .nack then 1#3 else 2#3
    let info : Byte := 0#3 ++ s.tn ++ BitVec.ofNat 4 k
    let seen : List Event := .bus c.prim (answerTo c.prim d) :: (exchanges ((F.take k).map Slot.prim) ins ++ s.out)
    (c.prim ≠ .stop → z.rst = false → z.busRsp = some e → s.inputs = ins ++ bad :: z :: rest →
      ∃ h l, runSteps (k + 2) s = .next { s with
        phase := .idle, fi := BitVec.ofNat 4 k, rxh := h, rxl := l, res := 0#32, err := code, errInfo := info,
        inputs := rest, out := .rsp 0#32 code info :: .bus .stop (answerTo .stop e) :: seen }) ∧
    (c.prim = .stop → s.inputs = ins ++ bad :: rest →
      ∃ h l, runSteps (k + 1) s = .next { s with
        phase := .idle, fi := BitVec.ofNat 4 k, rxh := h, rxl := l, res := 0#32, err := code, errInfo := info,
        inputs := rest, out := .rsp 0#32 code info :: seen })

/-- Every exchange is of the primitive `bus_req` carried: at a step BUS answers, that one and no other (R35, R55, R93). -/
def Obligations.ExchangedPrimitiveIsTheOneRequested : Prop :=
  ∀ s t : State, s.now.rst = false → step s = .next t →
    t.out.filter isBus =
      (match busReq s, s.now.busRsp with
        | some p, some d => [.bus p (answerTo p d)]
        | some _, none => []
        | none, _ => []) ++ s.out.filter isBus

/-- The draws of BUS give each primitive exactly the answers R90 lists for it: the model's form of a draw (log 3) allows no other answer
and leaves none out. -/
def Obligations.DrawsGiveExactlyTheListedAnswers : Prop :=
  ∀ a : BusAnswer,
    (∀ p, p = .start ∨ p = .restart ∨ p = .stop → ((∃ d, answerTo p d = a) ↔ a = .ok ∨ a = .timeout)) ∧
    (∀ b, (∃ d, answerTo (.wr b) d = a) ↔ a = .ack ∨ a = .nack ∨ a = .timeout) ∧
    (∀ k, (∃ d, answerTo (.rd k) d = a) ↔ (∃ b, a = .data b) ∨ a = .timeout)

/-! ### Completion, as a step of `exec` -/

/-- The commands of one write frame complete at its final STOP (WRITE16 and WRITE8, SET_RESOLUTION, SET_LIMIT, ALERT_ENABLE): `RES` is the
value written (R66). That `FI` stays at the frame's length in IDLE (log 17) and that SET_LIMIT's word is computed from `CUR_X` at each
step (log 13) is the model's reading. -/
def Obligations.WriteCommandsCompleteAtTheFinalStop : Prop :=
  ∀ (s : State) (d : BusDraw), s.phase = .run → s.now.busRsp = some d → d.timeout = false →
    let done (k : BitVec 4) (r : Word) : Host.Outcome State Fault Refusal := .next { s with
      phase := .idle, fi := k, res := r, out := .rsp r s.err s.errInfo :: .bus .stop .ok :: s.out }
    (s.fi = 5#4 → ∀ reg v, exec (.write16 reg v) s = done 6#4 (v.setWidth 32)) ∧
    (s.fi = 4#4 → ∀ reg b, exec (.write8 reg b) s = done 5#4 (b.setWidth 32)) ∧
    (s.fi = 4#4 → ∀ code, exec (.setResolution code) s = done 5#4 (code.setWidth 32)) ∧
    (s.fi = 5#4 → ∀ which, which ≠ 3#2 →
      exec (.setLimit which) s = done 6#4 ((encodeLimit s.cfg.limitRounding s.curX).setWidth 32)) ∧
    (s.fi = 5#4 → ∀ hyst mode, exec (.alertEnable hyst mode) s =
      done 6#4 (BitVec.setWidth 32 (0x0019#16 ||| (mode.setWidth 16 <<< 2) ||| (hyst.setWidth 16 <<< 9))))

/-- The commands of one read frame that return the value raw complete at its final STOP: READ16 and the two IDs with `{RXH, RXL}`, READ8
with `RXL` (R66, R102, R103, R128, R129). That `FI` stays at the frame's length in IDLE is the model's reading (log 17). -/
def Obligations.ReadCommandsCompleteAtTheFinalStop : Prop :=
  ∀ (s : State) (d : BusDraw), s.phase = .run → s.now.busRsp = some d → d.timeout = false →
    let done (k : BitVec 4) (r : Word) : Host.Outcome State Fault Refusal := .next { s with
      phase := .idle, fi := k, res := r, out := .rsp r s.err s.errInfo :: .bus .stop .ok :: s.out }
    (s.fi = 7#4 → ∀ reg, exec (.read16 reg) s = done 8#4 ((s.rxh ++ s.rxl).setWidth 32)) ∧
    (s.fi = 6#4 → ∀ reg, exec (.read8 reg) s = done 7#4 (s.rxl.setWidth 32)) ∧
    (s.fi = 7#4 → exec .getManufacturerId s = done 8#4 ((s.rxh ++ s.rxl).setWidth 32)) ∧
    (s.fi = 7#4 → exec .getDeviceId s = done 8#4 ((s.rxh ++ s.rxl).setWidth 32))

/-- GET_TEMPERATURE completes at its final STOP: the status cache takes bits 15:13 of the value read and becomes valid, and `RES` is the
decoded reading with the flags (R66, R111). That `FI` stays at the frame's length in IDLE is the model's reading (log 17). -/
def Obligations.GetTemperatureRefreshesTheStatusCache : Prop :=
  ∀ (s : State) (d : BusDraw), s.phase = .run → s.fi = 7#4 → s.now.busRsp = some d → d.timeout = false →
    let raw : Half := s.rxh ++ s.rxl
    ∃ r : Word,
      exec .getTemperature s = .next { s with
        phase := .idle, fi := 8#4, stat := raw.extractLsb' 13 3, statV := 1#1, res := r,
        out := .rsp r s.err s.errInfo :: .bus .stop .ok :: s.out } ∧
      (r.extractLsb' 0 13).toNat =
        (if raw.getLsbD 12 then 4096 - (raw.extractLsb' 0 12).toNat else (raw.extractLsb' 0 12).toNat) ∧
      r.extractLsb' 13 1 = raw.extractLsb' 12 1 ∧ r.extractLsb' 14 2 = 0#2 ∧
      r.extractLsb' 16 3 = raw.extractLsb' 13 3 ∧ r.extractLsb' 19 13 = 0#13

/-- The read of an RMW command, once complete, puts the value read into `HOLD` and starts the write transaction (R30, R121). -/
def Obligations.RmwReadStartsTheWrite : Prop :=
  ∀ (i : Instr) (s : State) (d : BusDraw), isRmw i = true → s.phase = .run → s.tn = 0#1 → s.fi = 7#4 →
    s.now.busRsp = some d → d.timeout = false →
    exec i s = .next { s with hold := s.rxh ++ s.rxl, tn := 1#1, fi := 0#4, out := .bus .stop .ok :: s.out }

/-- The lock commands complete at the final STOP of the write, with the word written: `HOLD` with CONFIG bit 7 or 6 set or cleared (R124
to R127). That `FI` and `TN` keep their values in IDLE is the model's reading (log 17). -/
def Obligations.LockCommandsCompleteAtTheFinalStop : Prop :=
  ∀ (s : State) (d : BusDraw), s.phase = .run → s.tn = 1#1 → s.fi = 5#4 → s.now.busRsp = some d → d.timeout = false →
    let done (v : Half) : Host.Outcome State Fault Refusal := .next { s with
      phase := .idle, fi := 6#4, res := v.setWidth 32, out := .rsp (v.setWidth 32) s.err s.errInfo :: .bus .stop .ok :: s.out }
    exec .tcritLock s = done (s.hold ||| 0x0080#16) ∧ exec .tcritUnlock s = done (s.hold &&& 0xFF7F#16) ∧
    exec .windowLock s = done (s.hold ||| 0x0040#16) ∧ exec .windowUnlock s = done (s.hold &&& 0xFFBF#16)

/-- SLEEP and WAKEUP, once the write has completed, start TIMER and wait in SETTLE with `RES` holding the word written (R120 to R123). That
`RES` is written before the wait is the order of R121's pseudocode (log 9), and the wait's number is the model's own (log 10). -/
def Obligations.PowerCommandsStartTheSettleWait : Prop :=
  ∀ (s : State) (d : BusDraw), s.phase = .run → s.tn = 1#1 → s.fi = 5#4 → s.now.busRsp = some d → d.timeout = false →
    let waiting (v : Half) : Host.Outcome State Fault Refusal := .next { s with
      phase := .settle, settleWaits := s.settleWaits + 1, fi := 6#4, res := v.setWidth 32,
      out := .settleStart :: .bus .stop .ok :: s.out }
    exec .sleep s = waiting (s.hold ||| 0x0100#16) ∧ exec .wakeup s = waiting (s.hold &&& 0xFEFF#16)

/-- The settle wait: SLEEP and WAKEUP hold until the `settle_done` that answers their wait, and then complete (R120); an answer to another
wait ends nothing (R160). Two clauses are the model's: `RES` stays as it is, since it was written before the wait (log 9, DEDUCED), and
the answer is told by the number of the wait (log 10, DESIGN CHOICE, unsafe). -/
def Obligations.SettleDoneCompletesThePowerCommand : Prop :=
  ∀ s : State, s.phase = .settle →
    let after : State :=
      if s.now.settleDone = some s.settleWaits then { s with phase := .idle, out := .rsp s.res s.err s.errInfo :: s.out } else s
    exec .sleep s = .next after ∧ exec .wakeup s = .next after

/-- INIT completes at its acceptance: `SLA` takes any 7-bit value, `RES` is 0, and nothing else changes (R110). -/
def Obligations.InitSetsTheSlaveAddress : Prop :=
  ∀ (s : State) (a : SlaveAddr), s.phase = .idle →
    exec (.init a) s = .next { s with sla := a, res := 0#32, out := .rsp 0#32 s.err s.errInfo :: s.out }

/-- GET_ALERT_PIN completes at its acceptance with `alert_in` of that step in bit 0 (R116). -/
def Obligations.GetAlertPinSamplesTheLine : Prop :=
  ∀ s : State, s.phase = .idle →
    let r : Word := if s.now.alertIn then 1#32 else 0#32
    exec .getAlertPin s = .next { s with res := r, out := .rsp r s.err s.errInfo :: s.out }

/-- GET_ALERT_STATUS completes at its acceptance with the cache in bits 2:0 and its valid bit in bit 3 (R66, R117). -/
def Obligations.GetAlertStatusReturnsTheCache : Prop :=
  ∀ s : State, s.phase = .idle →
    ∃ r : Word, exec .getAlertStatus s = .next { s with res := r, out := .rsp r s.err s.errInfo :: s.out } ∧
      r.extractLsb' 0 3 = s.stat ∧ r.extractLsb' 3 1 = s.statV ∧ r.extractLsb' 4 28 = 0#28

/-- R70: the CONFIG word ALERT_ENABLE writes is `0x0019 | (mode << 2) | (hyst << 9)`: bits 0, 3 and 4 set, bit 2 = mode, bits 10:9 = hyst
and every other bit 0. -/
def Obligations.AlertConfigurationWordBits : Prop :=
  ∀ (s : State) (hyst : BitVec 2) (mode : BitVec 1) (k : Nat),
    (frameOf (.alertEnable hyst mode) s).map (List.map Slot.prim) = some (primsW16 s.sla 0x01#8 (alertConfig hyst mode)) ∧
    alertConfig hyst mode = 0x0019#16 ||| (mode.setWidth 16 <<< 2) ||| (hyst.setWidth 16 <<< 9) ∧
    (alertConfig hyst mode).getLsbD k =
      (k == 0 || k == 3 || k == 4 || (k == 2 && mode.getLsbD 0) || (k == 9 && hyst.getLsbD 0) || (k == 10 && hyst.getLsbD 1))

/-! ### Runs from acceptance to response -/

/-- WRITE16 of a 16-bit register, BUS letting the frame pass: six primitives, high byte first, and `RES` is the value (R100). The model's:
the accepting step exchanges no primitive (log 4), and `FI` stays at the frame's length in IDLE (log 17). -/
def Obligations.Write16RunsToCompletion : Prop :=
  ∀ (s : State) (reg : Byte) (v : Half) (c : Inputs) (ins rest : List Inputs), s.phase = .idle →
    s.inputs = c :: (ins ++ rest) → presents (encode (.write16 reg v)) c = true → 1 ≤ reg.toNat → reg.toNat ≤ 7 →
    serves (primsW16 s.sla reg v) ins = true →
    runSteps 7 s = .next { s with
      curCw := c.cmdWord, curX := c.cmdX, err := 0#3, errInfo := 0#8, fi := 6#4, tn := 0#1, res := v.setWidth 32, inputs := rest,
      out := .rsp (v.setWidth 32) 0#3 0#8 :: (exchanges (primsW16 s.sla reg v) ins ++ s.out) }

/-- WRITE8 of RESOLUTION: five primitives, the byte as given, and `RES` is the byte (R101). The model's: the accepting step exchanges no
primitive (log 4), and `FI` stays at the frame's length in IDLE (log 17). -/
def Obligations.Write8RunsToCompletion : Prop :=
  ∀ (s : State) (b : Byte) (c : Inputs) (ins rest : List Inputs), s.phase = .idle →
    s.inputs = c :: (ins ++ rest) → presents (encode (.write8 0x08#8 b)) c = true →
    serves (primsW8 s.sla 0x08#8 b) ins = true →
    runSteps 6 s = .next { s with
      curCw := c.cmdWord, curX := c.cmdX, err := 0#3, errInfo := 0#8, fi := 5#4, tn := 0#1, res := b.setWidth 32, inputs := rest,
      out := .rsp (b.setWidth 32) 0#3 0#8 :: (exchanges (primsW8 s.sla 0x08#8 b) ins ++ s.out) }

/-- READ16 of a 16-bit register and the two ID reads: eight primitives, and `RES` is the first byte before the second, as BUS gave them
(R44, R102, R128, R129). The model's: the accepting step exchanges no primitive (log 4), and `FI` stays at the frame's length in IDLE (log
17). -/
def Obligations.RawSixteenBitReadsRunToCompletion : Prop :=
  ∀ (s : State) (i : Instr) (reg : Byte) (c : Inputs) (ins rest : List Inputs), s.phase = .idle →
    s.inputs = c :: (ins ++ rest) → presents (encode i) c = true →
    ((i = .read16 reg ∧ 1 ≤ reg.toNat ∧ reg.toNat ≤ 7) ∨ (i = .getManufacturerId ∧ reg = 0x06#8) ∨
      (i = .getDeviceId ∧ reg = 0x07#8)) →
    serves (primsR16 s.sla reg) ins = true →
    let r : Word := (byteAt ins 5 ++ byteAt ins 6).setWidth 32
    runSteps 9 s = .next { s with
      curCw := c.cmdWord, curX := c.cmdX, err := 0#3, errInfo := 0#8, fi := 8#4, tn := 0#1, rxh := byteAt ins 5,
      rxl := byteAt ins 6, res := r, inputs := rest, out := .rsp r 0#3 0#8 :: (exchanges (primsR16 s.sla reg) ins ++ s.out) }

/-- READ8 of RESOLUTION: seven primitives, and `RES` is the byte as BUS gave it (R103). The model's: the accepting step exchanges no
primitive (log 4), and `FI` stays at the frame's length in IDLE (log 17). -/
def Obligations.Read8RunsToCompletion : Prop :=
  ∀ (s : State) (c : Inputs) (ins rest : List Inputs), s.phase = .idle →
    s.inputs = c :: (ins ++ rest) → presents (encode (.read8 0x08#8)) c = true → serves (primsR8 s.sla 0x08#8) ins = true →
    runSteps 8 s = .next { s with
      curCw := c.cmdWord, curX := c.cmdX, err := 0#3, errInfo := 0#8, fi := 7#4, tn := 0#1, rxl := byteAt ins 5,
      res := (byteAt ins 5).setWidth 32, inputs := rest,
      out := .rsp ((byteAt ins 5).setWidth 32) 0#3 0#8 :: (exchanges (primsR8 s.sla 0x08#8) ins ++ s.out) }

/-- GET_TEMPERATURE: reads AMBIENT_TEMPERATURE in eight primitives, refreshes the status cache and returns the decoded reading (R111). The
model's: the accepting step exchanges no primitive (log 4), and `FI` stays at the frame's length in IDLE (log 17). -/
def Obligations.GetTemperatureRunsToCompletion : Prop :=
  ∀ (s : State) (c : Inputs) (ins rest : List Inputs), s.phase = .idle →
    s.inputs = c :: (ins ++ rest) → presents (encode .getTemperature) c = true → serves (primsR16 s.sla 0x05#8) ins = true →
    let raw : Half := byteAt ins 5 ++ byteAt ins 6
    let r : Word := tempResult (decodeTemp raw)
    runSteps 9 s = .next { s with
      curCw := c.cmdWord, curX := c.cmdX, err := 0#3, errInfo := 0#8, fi := 8#4, tn := 0#1, rxh := byteAt ins 5,
      rxl := byteAt ins 6, stat := raw.extractLsb' 13 3, statV := 1#1, res := r, inputs := rest,
      out := .rsp r 0#3 0#8 :: (exchanges (primsR16 s.sla 0x05#8) ins ++ s.out) }

/-- SET_RESOLUTION writes the code, zero extended, to RESOLUTION (R112). The model's: the accepting step exchanges no primitive (log 4),
and `FI` stays at the frame's length in IDLE (log 17). -/
def Obligations.SetResolutionRunsToCompletion : Prop :=
  ∀ (s : State) (code : BitVec 2) (c : Inputs) (ins rest : List Inputs), s.phase = .idle →
    s.inputs = c :: (ins ++ rest) → presents (encode (.setResolution code)) c = true →
    serves (primsW8 s.sla 0x08#8 (code.setWidth 8)) ins = true →
    runSteps 6 s = .next { s with
      curCw := c.cmdWord, curX := c.cmdX, err := 0#3, errInfo := 0#8, fi := 5#4, tn := 0#1, res := code.setWidth 32,
      inputs := rest, out := .rsp (code.setWidth 32) 0#3 0#8 :: (exchanges (primsW8 s.sla 0x08#8 (code.setWidth 8)) ins ++ s.out) }

/-- SET_LIMIT writes the limit word of the operand presented with the command to T_UPPER, T_LOWER or T_CRITICAL (R113). The model's: the
accepting step exchanges no primitive (log 4), and `FI` stays at the frame's length in IDLE (log 17). -/
def Obligations.SetLimitRunsToCompletion : Prop :=
  ∀ (s : State) (which : BitVec 2) (c : Inputs) (ins rest : List Inputs), s.phase = .idle → which ≠ 3#2 →
    s.inputs = c :: (ins ++ rest) → presents (encode (.setLimit which)) c = true →
    let w : Half := encodeLimit s.cfg.limitRounding c.cmdX
    let reg : Byte := if which = 0#2 then 0x02#8 else if which = 1#2 then 0x03#8 else 0x04#8
    serves (primsW16 s.sla reg w) ins = true →
    runSteps 7 s = .next { s with
      curCw := c.cmdWord, curX := c.cmdX, err := 0#3, errInfo := 0#8, fi := 6#4, tn := 0#1, res := w.setWidth 32, inputs := rest,
      out := .rsp (w.setWidth 32) 0#3 0#8 :: (exchanges (primsW16 s.sla reg w) ins ++ s.out) }

/-- ALERT_ENABLE overwrites CONFIG in one write with no read, and the word it writes has the lock bits 6 and 7 and the sleep bit 8 clear
(R114, R115). The model's: the accepting step exchanges no primitive (log 4), and `FI` stays at the frame's length in IDLE (log 17). -/
def Obligations.AlertEnableOverwritesConfig : Prop :=
  ∀ (s : State) (hyst : BitVec 2) (mode : BitVec 1) (c : Inputs) (ins rest : List Inputs), s.phase = .idle →
    s.inputs = c :: (ins ++ rest) → presents (encode (.alertEnable hyst mode)) c = true →
    let cfg : Half := 0x0019#16 ||| (mode.setWidth 16 <<< 2) ||| (hyst.setWidth 16 <<< 9)
    serves (primsW16 s.sla 0x01#8 cfg) ins = true →
    cfg.extractLsb' 6 3 = 0#3 ∧
    runSteps 7 s = .next { s with
      curCw := c.cmdWord, curX := c.cmdX, err := 0#3, errInfo := 0#8, fi := 6#4, tn := 0#1, res := cfg.setWidth 32, inputs := rest,
      out := .rsp (cfg.setWidth 32) 0#3 0#8 :: (exchanges (primsW16 s.sla 0x01#8 cfg) ins ++ s.out) }

/-- The lock commands read CONFIG and write it back with the one bit set or cleared, in fourteen primitives (R121, R124 to R127). The
model's: the accepting step exchanges no primitive (log 4), and `FI` and `TN` keep their last values in IDLE (log 17). -/
def Obligations.LockCommandsRunToCompletion : Prop :=
  ∀ (s : State) (i : Instr) (v : Half) (c : Inputs) (rd wr rest : List Inputs), s.phase = .idle →
    s.inputs = c :: (rd ++ (wr ++ rest)) → presents (encode i) c = true → serves (primsR16 s.sla 0x01#8) rd = true →
    let old : Half := byteAt rd 5 ++ byteAt rd 6
    ((i = .tcritLock ∧ v = old ||| 0x0080#16) ∨ (i = .tcritUnlock ∧ v = old &&& 0xFF7F#16) ∨
      (i = .windowLock ∧ v = old ||| 0x0040#16) ∨ (i = .windowUnlock ∧ v = old &&& 0xFFBF#16)) →
    serves (primsW16 s.sla 0x01#8 v) wr = true →
    runSteps 15 s = .next { s with
      curCw := c.cmdWord, curX := c.cmdX, err := 0#3, errInfo := 0#8, fi := 6#4, tn := 1#1, rxh := byteAt rd 5,
      rxl := byteAt rd 6, hold := old, res := v.setWidth 32, inputs := rest,
      out := .rsp (v.setWidth 32) 0#3 0#8 ::
        (exchanges (primsW16 s.sla 0x01#8 v) wr ++ (exchanges (primsR16 s.sla 0x01#8) rd ++ s.out)) }

/-- SLEEP and WAKEUP read CONFIG, write it back with bit 8 set or cleared, start TIMER, wait through any number of steps without TIMER's
answer to this wait, late answers to earlier waits among them (R160), and respond at the step that has it (R119 to R123). The model's: the
answer is told by the number of the wait (log 10, DESIGN CHOICE, unsafe); the accepting step exchanges no primitive (log 4); `FI` and
`TN` keep their last values in IDLE (log 17). -/
def Obligations.PowerCommandsRunToCompletion : Prop :=
  ∀ (s : State) (i : Instr) (v : Half) (c fin : Inputs) (rd wr waits rest : List Inputs), s.phase = .idle →
    s.inputs = c :: (rd ++ (wr ++ (waits ++ fin :: rest))) → presents (encode i) c = true →
    serves (primsR16 s.sla 0x01#8) rd = true →
    let old : Half := byteAt rd 5 ++ byteAt rd 6
    ((i = .sleep ∧ v = old ||| 0x0100#16) ∨ (i = .wakeup ∧ v = old &&& 0xFEFF#16)) →
    serves (primsW16 s.sla 0x01#8 v) wr = true → (∀ w ∈ waits, w.rst = false ∧ w.settleDone ≠ some (s.settleWaits + 1)) →
    fin.rst = false → fin.settleDone = some (s.settleWaits + 1) →
    runSteps (16 + waits.length) s = .next { s with
      curCw := c.cmdWord, curX := c.cmdX, err := 0#3, errInfo := 0#8, fi := 6#4, tn := 1#1, rxh := byteAt rd 5,
      rxl := byteAt rd 6, hold := old, settleWaits := s.settleWaits + 1, res := v.setWidth 32, inputs := rest,
      out := .rsp (v.setWidth 32) 0#3 0#8 :: .settleStart ::
        (exchanges (primsW16 s.sla 0x01#8 v) wr ++ (exchanges (primsR16 s.sla 0x01#8) rd ++ s.out)) }

/-! ### The whole machine -/

/-- Only GET_TEMPERATURE writes the status cache, and only at the step at which its read completes without error (R22, R23, R27). -/
def Obligations.OnlyASuccessfulGetTemperatureWritesTheStatus : Prop :=
  ∀ (i : Instr) (s t : State), exec i s = .next t → (t.stat ≠ s.stat ∨ t.statV ≠ s.statV) →
    i = .getTemperature ∧ s.phase = .run ∧ s.fi = 7#4 ∧ (∃ d, s.now.busRsp = some d ∧ d.timeout = false) ∧
    t.phase = .idle ∧ t.stat = (s.rxh ++ s.rxl).extractLsb' 13 3 ∧ t.statV = 1#1

/-- Only INIT writes the slave address, and no command writes the parameters, the latched command, or the environment (R7, R21, R29). -/
def Obligations.CommandsKeepAddressLatchesAndParameters : Prop :=
  ∀ (i : Instr) (s t : State), exec i s = .next t →
    (t.sla = s.sla ∨ i = .init t.sla) ∧ t.cfg = s.cfg ∧ t.curCw = s.curCw ∧ t.curX = s.curX ∧ t.inputs = s.inputs

/-- R36: the reset value of every register. -/
def Obligations.ResetValues : Prop :=
  State.reset.sla = 0x18#7 ∧ State.reset.stat = 0b000#3 ∧ State.reset.statV = 0#1 ∧ State.reset.res = 0x00000000#32 ∧
  State.reset.err = 0#3 ∧ State.reset.errInfo = 0x00#8 ∧ State.reset.phase = .idle ∧ cmdReady State.reset = true ∧
  State.reset.curCw = 0#32 ∧ State.reset.curX = 0#32 ∧ State.reset.fi = 0#4 ∧ State.reset.tn = 0#1 ∧
  State.reset.rxh = 0#8 ∧ State.reset.rxl = 0#8 ∧ State.reset.hold = 0#16

/-- A step with `rst` = 1 gives every register its reset value whatever the block was doing, with no response, no primitive and no other
event (R160). That `rst` overrides every other port of its step is the model's reading (log 11); `cfg`, `out` and `settleWaits` stay, as no
registers of the block (logs 8, 5, 10). -/
def Obligations.ResetAbandonsTheCommand : Prop :=
  ∀ s : State, s.now.rst = true →
    step s = .next {
      sla := s.cfg.slaReset, stat := 0#3, statV := 0#1, res := 0#32, err := 0#3, errInfo := 0#8, phase := .idle, curCw := 0#32,
      curX := 0#32, fi := 0#4, tn := 0#1, rxh := 0#8, rxl := 0#8, hold := 0#16, pend := none, settleWaits := s.settleWaits, cfg := s.cfg,
      inputs := s.inputs.tail, out := s.out }

/-- The state after reset satisfies the invariant. -/
def Obligations.ResetStateSatisfiesTheInvariant : Prop := Inv State.reset

/-- From every state of the invariant the block takes a step, whatever the environment does, and keeps the invariant: `ERR` at most 4,
`ERR_INFO` as R26 has it, `RES` = 0 beside an error, no status without its valid bit, and the control registers at a point of the command
in progress; so the stop for stray control is never reached. `strayControl` (log 7) and `pend` (log 6) are the model's own. -/
def Obligations.EveryStepCompletesAndKeepsTheInvariant : Prop :=
  ∀ s : State, Inv s → ∃ t, step s = .next t ∧ Inv t

/-- R160: TIMER's answer to a settle wait begun before a reset is ignored at every step of every run after it, also where a later SLEEP or
WAKEUP is in its own wait: the step is the one without it. A wait is named by its number, the count of `settle_start` events so far,
which is the model's form (log 10, DESIGN CHOICE, unsafe). -/
def Obligations.LateSettleDoneIsIgnored : Prop :=
  (∀ s t : State, step s = .next t → t.settleWaits + s.out.countP isSettleStart = s.settleWaits + t.out.countP isSettleStart) ∧
  (∀ (s t : State) (k n : Nat) (c : Inputs) (rest : List Inputs), s.now.rst = true → n ≤ s.settleWaits →
    runSteps (k + 1) s = .next t →
    step { t with inputs := { c with settleDone := some n } :: rest } = step { t with inputs := { c with settleDone := none } :: rest })
end

