-- ==== Sys2Proof/Laws/Decode.lean ====
section
/-! SUPPORT. The fields of a command word built from its fields. -/

namespace Sys2Proof

@[simp] theorem opField_commandWord (d : Half) (a op : Byte) : opField (commandWord d a op) = op := by
  ext k hk
  simp only [opField, commandWord, BitVec.getElem_extractLsb', BitVec.getLsbD_append]
  simp [hk]

@[simp] theorem aField_commandWord (d : Half) (a op : Byte) : aField (commandWord d a op) = a := by
  ext k hk
  have h1 : ¬ 8 + k < 8 := by omega
  simp only [aField, commandWord, BitVec.getElem_extractLsb', BitVec.getLsbD_append]
  simp [hk, h1]

@[simp] theorem dField_commandWord (d : Half) (a op : Byte) : dField (commandWord d a op) = d := by
  ext k hk
  have h1 : ¬ 16 + k < 8 := by omega
  have h2 : ¬ 16 + k - 8 < 8 := by omega
  have h3 : 16 + k - 8 - 8 = k := by omega
  simp only [dField, commandWord, BitVec.getElem_extractLsb', BitVec.getLsbD_append]
  simp [h1, h2, h3, BitVec.getLsbD_eq_getElem hk]

/-- A word is its three fields (R60). -/
theorem commandWord_fields (cw : Word) : commandWord (dField cw) (aField cw) (opField cw) = cw := by
  apply BitVec.eq_of_getLsbD_eq
  intro k hk
  simp only [opField, aField, dField, commandWord, BitVec.getLsbD_append, BitVec.getLsbD_extractLsb']
  split
  · simp [*]
  · split
    · have h : 8 + (k - 8) = k := by omega
      simp [*]
    · have h : 16 + (k - 8 - 8) = k := by omega
      have h' : k - 8 - 8 < 16 := by omega
      simp [*]

end Sys2Proof
end

