-- ==== Sys2Proof/Laws/State.lean ====
section
/-! SUPPORT. One lemma per field per update of State, each true by definition, so that no proof unfolds a record update. -/

namespace Sys2Proof.Machine

/-! ### `advance` -/

@[simp] theorem advance_sla (s : State) : (advance s).sla = s.sla := rfl
@[simp] theorem advance_stat (s : State) : (advance s).stat = s.stat := rfl
@[simp] theorem advance_statV (s : State) : (advance s).statV = s.statV := rfl
@[simp] theorem advance_res (s : State) : (advance s).res = s.res := rfl
@[simp] theorem advance_err (s : State) : (advance s).err = s.err := rfl
@[simp] theorem advance_errInfo (s : State) : (advance s).errInfo = s.errInfo := rfl
@[simp] theorem advance_phase (s : State) : (advance s).phase = s.phase := rfl
@[simp] theorem advance_curCw (s : State) : (advance s).curCw = s.curCw := rfl
@[simp] theorem advance_curX (s : State) : (advance s).curX = s.curX := rfl
@[simp] theorem advance_fi (s : State) : (advance s).fi = s.fi := rfl
@[simp] theorem advance_tn (s : State) : (advance s).tn = s.tn := rfl
@[simp] theorem advance_rxh (s : State) : (advance s).rxh = s.rxh := rfl
@[simp] theorem advance_rxl (s : State) : (advance s).rxl = s.rxl := rfl
@[simp] theorem advance_hold (s : State) : (advance s).hold = s.hold := rfl
@[simp] theorem advance_pend (s : State) : (advance s).pend = s.pend := rfl
@[simp] theorem advance_settleWaits (s : State) : (advance s).settleWaits = s.settleWaits := rfl
@[simp] theorem advance_cfg (s : State) : (advance s).cfg = s.cfg := rfl
@[simp] theorem advance_inputs (s : State) : (advance s).inputs = s.inputs.tail := rfl
@[simp] theorem advance_out (s : State) : (advance s).out = s.out := rfl

/-! ### `emit` -/

@[simp] theorem emit_sla (e : Event) (s : State) : (emit e s).sla = s.sla := rfl
@[simp] theorem emit_stat (e : Event) (s : State) : (emit e s).stat = s.stat := rfl
@[simp] theorem emit_statV (e : Event) (s : State) : (emit e s).statV = s.statV := rfl
@[simp] theorem emit_res (e : Event) (s : State) : (emit e s).res = s.res := rfl
@[simp] theorem emit_err (e : Event) (s : State) : (emit e s).err = s.err := rfl
@[simp] theorem emit_errInfo (e : Event) (s : State) : (emit e s).errInfo = s.errInfo := rfl
@[simp] theorem emit_phase (e : Event) (s : State) : (emit e s).phase = s.phase := rfl
@[simp] theorem emit_curCw (e : Event) (s : State) : (emit e s).curCw = s.curCw := rfl
@[simp] theorem emit_curX (e : Event) (s : State) : (emit e s).curX = s.curX := rfl
@[simp] theorem emit_fi (e : Event) (s : State) : (emit e s).fi = s.fi := rfl
@[simp] theorem emit_tn (e : Event) (s : State) : (emit e s).tn = s.tn := rfl
@[simp] theorem emit_rxh (e : Event) (s : State) : (emit e s).rxh = s.rxh := rfl
@[simp] theorem emit_rxl (e : Event) (s : State) : (emit e s).rxl = s.rxl := rfl
@[simp] theorem emit_hold (e : Event) (s : State) : (emit e s).hold = s.hold := rfl
@[simp] theorem emit_pend (e : Event) (s : State) : (emit e s).pend = s.pend := rfl
@[simp] theorem emit_settleWaits (e : Event) (s : State) : (emit e s).settleWaits = s.settleWaits := rfl
@[simp] theorem emit_cfg (e : Event) (s : State) : (emit e s).cfg = s.cfg := rfl
@[simp] theorem emit_inputs (e : Event) (s : State) : (emit e s).inputs = s.inputs := rfl
@[simp] theorem emit_out (e : Event) (s : State) : (emit e s).out = e :: s.out := rfl

/-! ### `accept` -/

@[simp] theorem accept_sla (s : State) : (accept s).sla = s.sla := rfl
@[simp] theorem accept_stat (s : State) : (accept s).stat = s.stat := rfl
@[simp] theorem accept_statV (s : State) : (accept s).statV = s.statV := rfl
@[simp] theorem accept_res (s : State) : (accept s).res = s.res := rfl
@[simp] theorem accept_err (s : State) : (accept s).err = 0#3 := rfl
@[simp] theorem accept_errInfo (s : State) : (accept s).errInfo = 0#8 := rfl
@[simp] theorem accept_phase (s : State) : (accept s).phase = s.phase := rfl
@[simp] theorem accept_curCw (s : State) : (accept s).curCw = s.now.cmdWord := rfl
@[simp] theorem accept_curX (s : State) : (accept s).curX = s.now.cmdX := rfl
@[simp] theorem accept_fi (s : State) : (accept s).fi = 0#4 := rfl
@[simp] theorem accept_tn (s : State) : (accept s).tn = 0#1 := rfl
@[simp] theorem accept_rxh (s : State) : (accept s).rxh = s.rxh := rfl
@[simp] theorem accept_rxl (s : State) : (accept s).rxl = s.rxl := rfl
@[simp] theorem accept_hold (s : State) : (accept s).hold = s.hold := rfl
@[simp] theorem accept_pend (s : State) : (accept s).pend = s.pend := rfl
@[simp] theorem accept_settleWaits (s : State) : (accept s).settleWaits = s.settleWaits := rfl
@[simp] theorem accept_cfg (s : State) : (accept s).cfg = s.cfg := rfl
@[simp] theorem accept_inputs (s : State) : (accept s).inputs = s.inputs := rfl
@[simp] theorem accept_out (s : State) : (accept s).out = s.out := rfl

/-! ### `respond` -/

@[simp] theorem respond_sla (s : State) : (respond s).sla = s.sla := rfl
@[simp] theorem respond_stat (s : State) : (respond s).stat = s.stat := rfl
@[simp] theorem respond_statV (s : State) : (respond s).statV = s.statV := rfl
@[simp] theorem respond_res (s : State) : (respond s).res = s.res := rfl
@[simp] theorem respond_err (s : State) : (respond s).err = s.err := rfl
@[simp] theorem respond_errInfo (s : State) : (respond s).errInfo = s.errInfo := rfl
@[simp] theorem respond_phase (s : State) : (respond s).phase = .idle := rfl
@[simp] theorem respond_curCw (s : State) : (respond s).curCw = s.curCw := rfl
@[simp] theorem respond_curX (s : State) : (respond s).curX = s.curX := rfl
@[simp] theorem respond_fi (s : State) : (respond s).fi = s.fi := rfl
@[simp] theorem respond_tn (s : State) : (respond s).tn = s.tn := rfl
@[simp] theorem respond_rxh (s : State) : (respond s).rxh = s.rxh := rfl
@[simp] theorem respond_rxl (s : State) : (respond s).rxl = s.rxl := rfl
@[simp] theorem respond_hold (s : State) : (respond s).hold = s.hold := rfl
@[simp] theorem respond_pend (s : State) : (respond s).pend = s.pend := rfl
@[simp] theorem respond_settleWaits (s : State) : (respond s).settleWaits = s.settleWaits := rfl
@[simp] theorem respond_cfg (s : State) : (respond s).cfg = s.cfg := rfl
@[simp] theorem respond_inputs (s : State) : (respond s).inputs = s.inputs := rfl
@[simp] theorem respond_out (s : State) : (respond s).out = .rsp s.res s.err s.errInfo :: s.out := rfl

/-! ### `complete` -/

@[simp] theorem complete_sla (r : Word) (s : State) : (complete r s).sla = s.sla := rfl
@[simp] theorem complete_stat (r : Word) (s : State) : (complete r s).stat = s.stat := rfl
@[simp] theorem complete_statV (r : Word) (s : State) : (complete r s).statV = s.statV := rfl
@[simp] theorem complete_res (r : Word) (s : State) : (complete r s).res = r := rfl
@[simp] theorem complete_err (r : Word) (s : State) : (complete r s).err = s.err := rfl
@[simp] theorem complete_errInfo (r : Word) (s : State) : (complete r s).errInfo = s.errInfo := rfl
@[simp] theorem complete_phase (r : Word) (s : State) : (complete r s).phase = .idle := rfl
@[simp] theorem complete_curCw (r : Word) (s : State) : (complete r s).curCw = s.curCw := rfl
@[simp] theorem complete_curX (r : Word) (s : State) : (complete r s).curX = s.curX := rfl
@[simp] theorem complete_fi (r : Word) (s : State) : (complete r s).fi = s.fi := rfl
@[simp] theorem complete_tn (r : Word) (s : State) : (complete r s).tn = s.tn := rfl
@[simp] theorem complete_rxh (r : Word) (s : State) : (complete r s).rxh = s.rxh := rfl
@[simp] theorem complete_rxl (r : Word) (s : State) : (complete r s).rxl = s.rxl := rfl
@[simp] theorem complete_hold (r : Word) (s : State) : (complete r s).hold = s.hold := rfl
@[simp] theorem complete_pend (r : Word) (s : State) : (complete r s).pend = s.pend := rfl
@[simp] theorem complete_settleWaits (r : Word) (s : State) : (complete r s).settleWaits = s.settleWaits := rfl
@[simp] theorem complete_cfg (r : Word) (s : State) : (complete r s).cfg = s.cfg := rfl
@[simp] theorem complete_inputs (r : Word) (s : State) : (complete r s).inputs = s.inputs := rfl
@[simp] theorem complete_out (r : Word) (s : State) : (complete r s).out = .rsp r s.err s.errInfo :: s.out := rfl

/-! ### `raiseError` -/

@[simp] theorem raiseError_sla (k : ErrKind) (info : Byte) (s : State) : (raiseError k info s).sla = s.sla := rfl
@[simp] theorem raiseError_stat (k : ErrKind) (info : Byte) (s : State) : (raiseError k info s).stat = s.stat := rfl
@[simp] theorem raiseError_statV (k : ErrKind) (info : Byte) (s : State) : (raiseError k info s).statV = s.statV := rfl
@[simp] theorem raiseError_res (k : ErrKind) (info : Byte) (s : State) : (raiseError k info s).res = 0#32 := rfl
@[simp] theorem raiseError_err (k : ErrKind) (info : Byte) (s : State) : (raiseError k info s).err = errCode k := rfl
@[simp] theorem raiseError_errInfo (k : ErrKind) (info : Byte) (s : State) : (raiseError k info s).errInfo = info := rfl
@[simp] theorem raiseError_phase (k : ErrKind) (info : Byte) (s : State) : (raiseError k info s).phase = .idle := rfl
@[simp] theorem raiseError_curCw (k : ErrKind) (info : Byte) (s : State) : (raiseError k info s).curCw = s.curCw := rfl
@[simp] theorem raiseError_curX (k : ErrKind) (info : Byte) (s : State) : (raiseError k info s).curX = s.curX := rfl
@[simp] theorem raiseError_fi (k : ErrKind) (info : Byte) (s : State) : (raiseError k info s).fi = s.fi := rfl
@[simp] theorem raiseError_tn (k : ErrKind) (info : Byte) (s : State) : (raiseError k info s).tn = s.tn := rfl
@[simp] theorem raiseError_rxh (k : ErrKind) (info : Byte) (s : State) : (raiseError k info s).rxh = s.rxh := rfl
@[simp] theorem raiseError_rxl (k : ErrKind) (info : Byte) (s : State) : (raiseError k info s).rxl = s.rxl := rfl
@[simp] theorem raiseError_hold (k : ErrKind) (info : Byte) (s : State) : (raiseError k info s).hold = s.hold := rfl
@[simp] theorem raiseError_pend (k : ErrKind) (info : Byte) (s : State) : (raiseError k info s).pend = none := rfl
@[simp] theorem raiseError_settleWaits (k : ErrKind) (info : Byte) (s : State) : (raiseError k info s).settleWaits = s.settleWaits := rfl
@[simp] theorem raiseError_cfg (k : ErrKind) (info : Byte) (s : State) : (raiseError k info s).cfg = s.cfg := rfl
@[simp] theorem raiseError_inputs (k : ErrKind) (info : Byte) (s : State) : (raiseError k info s).inputs = s.inputs := rfl
@[simp] theorem raiseError_out (k : ErrKind) (info : Byte) (s : State) : (raiseError k info s).out = .rsp 0#32 (errCode k) info :: s.out := rfl

/-! ### `startFrame` -/

@[simp] theorem startFrame_sla (s : State) : (startFrame s).sla = s.sla := rfl
@[simp] theorem startFrame_stat (s : State) : (startFrame s).stat = s.stat := rfl
@[simp] theorem startFrame_statV (s : State) : (startFrame s).statV = s.statV := rfl
@[simp] theorem startFrame_res (s : State) : (startFrame s).res = s.res := rfl
@[simp] theorem startFrame_err (s : State) : (startFrame s).err = s.err := rfl
@[simp] theorem startFrame_errInfo (s : State) : (startFrame s).errInfo = s.errInfo := rfl
@[simp] theorem startFrame_phase (s : State) : (startFrame s).phase = .run := rfl
@[simp] theorem startFrame_curCw (s : State) : (startFrame s).curCw = s.curCw := rfl
@[simp] theorem startFrame_curX (s : State) : (startFrame s).curX = s.curX := rfl
@[simp] theorem startFrame_fi (s : State) : (startFrame s).fi = 0#4 := rfl
@[simp] theorem startFrame_tn (s : State) : (startFrame s).tn = s.tn := rfl
@[simp] theorem startFrame_rxh (s : State) : (startFrame s).rxh = s.rxh := rfl
@[simp] theorem startFrame_rxl (s : State) : (startFrame s).rxl = s.rxl := rfl
@[simp] theorem startFrame_hold (s : State) : (startFrame s).hold = s.hold := rfl
@[simp] theorem startFrame_pend (s : State) : (startFrame s).pend = s.pend := rfl
@[simp] theorem startFrame_settleWaits (s : State) : (startFrame s).settleWaits = s.settleWaits := rfl
@[simp] theorem startFrame_cfg (s : State) : (startFrame s).cfg = s.cfg := rfl
@[simp] theorem startFrame_inputs (s : State) : (startFrame s).inputs = s.inputs := rfl
@[simp] theorem startFrame_out (s : State) : (startFrame s).out = s.out := rfl

/-! ### `startWrite` -/

@[simp] theorem startWrite_sla (s : State) : (startWrite s).sla = s.sla := rfl
@[simp] theorem startWrite_stat (s : State) : (startWrite s).stat = s.stat := rfl
@[simp] theorem startWrite_statV (s : State) : (startWrite s).statV = s.statV := rfl
@[simp] theorem startWrite_res (s : State) : (startWrite s).res = s.res := rfl
@[simp] theorem startWrite_err (s : State) : (startWrite s).err = s.err := rfl
@[simp] theorem startWrite_errInfo (s : State) : (startWrite s).errInfo = s.errInfo := rfl
@[simp] theorem startWrite_phase (s : State) : (startWrite s).phase = .run := rfl
@[simp] theorem startWrite_curCw (s : State) : (startWrite s).curCw = s.curCw := rfl
@[simp] theorem startWrite_curX (s : State) : (startWrite s).curX = s.curX := rfl
@[simp] theorem startWrite_fi (s : State) : (startWrite s).fi = 0#4 := rfl
@[simp] theorem startWrite_tn (s : State) : (startWrite s).tn = 1#1 := rfl
@[simp] theorem startWrite_rxh (s : State) : (startWrite s).rxh = s.rxh := rfl
@[simp] theorem startWrite_rxl (s : State) : (startWrite s).rxl = s.rxl := rfl
@[simp] theorem startWrite_hold (s : State) : (startWrite s).hold = rxWord s := rfl
@[simp] theorem startWrite_pend (s : State) : (startWrite s).pend = s.pend := rfl
@[simp] theorem startWrite_settleWaits (s : State) : (startWrite s).settleWaits = s.settleWaits := rfl
@[simp] theorem startWrite_cfg (s : State) : (startWrite s).cfg = s.cfg := rfl
@[simp] theorem startWrite_inputs (s : State) : (startWrite s).inputs = s.inputs := rfl
@[simp] theorem startWrite_out (s : State) : (startWrite s).out = s.out := rfl

/-! ### `startSettle` -/

@[simp] theorem startSettle_sla (s : State) : (startSettle s).sla = s.sla := rfl
@[simp] theorem startSettle_stat (s : State) : (startSettle s).stat = s.stat := rfl
@[simp] theorem startSettle_statV (s : State) : (startSettle s).statV = s.statV := rfl
@[simp] theorem startSettle_res (s : State) : (startSettle s).res = s.res := rfl
@[simp] theorem startSettle_err (s : State) : (startSettle s).err = s.err := rfl
@[simp] theorem startSettle_errInfo (s : State) : (startSettle s).errInfo = s.errInfo := rfl
@[simp] theorem startSettle_phase (s : State) : (startSettle s).phase = .settle := rfl
@[simp] theorem startSettle_curCw (s : State) : (startSettle s).curCw = s.curCw := rfl
@[simp] theorem startSettle_curX (s : State) : (startSettle s).curX = s.curX := rfl
@[simp] theorem startSettle_fi (s : State) : (startSettle s).fi = s.fi := rfl
@[simp] theorem startSettle_tn (s : State) : (startSettle s).tn = s.tn := rfl
@[simp] theorem startSettle_rxh (s : State) : (startSettle s).rxh = s.rxh := rfl
@[simp] theorem startSettle_rxl (s : State) : (startSettle s).rxl = s.rxl := rfl
@[simp] theorem startSettle_hold (s : State) : (startSettle s).hold = s.hold := rfl
@[simp] theorem startSettle_pend (s : State) : (startSettle s).pend = s.pend := rfl
@[simp] theorem startSettle_settleWaits (s : State) : (startSettle s).settleWaits = s.settleWaits + 1 := rfl
@[simp] theorem startSettle_cfg (s : State) : (startSettle s).cfg = s.cfg := rfl
@[simp] theorem startSettle_inputs (s : State) : (startSettle s).inputs = s.inputs := rfl
@[simp] theorem startSettle_out (s : State) : (startSettle s).out = .settleStart :: s.out := rfl

/-! ### `refreshStatus` -/

@[simp] theorem refreshStatus_sla (raw : Half) (s : State) : (refreshStatus raw s).sla = s.sla := rfl
@[simp] theorem refreshStatus_stat (raw : Half) (s : State) : (refreshStatus raw s).stat = statusFlags raw := rfl
@[simp] theorem refreshStatus_statV (raw : Half) (s : State) : (refreshStatus raw s).statV = 1#1 := rfl
@[simp] theorem refreshStatus_res (raw : Half) (s : State) : (refreshStatus raw s).res = s.res := rfl
@[simp] theorem refreshStatus_err (raw : Half) (s : State) : (refreshStatus raw s).err = s.err := rfl
@[simp] theorem refreshStatus_errInfo (raw : Half) (s : State) : (refreshStatus raw s).errInfo = s.errInfo := rfl
@[simp] theorem refreshStatus_phase (raw : Half) (s : State) : (refreshStatus raw s).phase = s.phase := rfl
@[simp] theorem refreshStatus_curCw (raw : Half) (s : State) : (refreshStatus raw s).curCw = s.curCw := rfl
@[simp] theorem refreshStatus_curX (raw : Half) (s : State) : (refreshStatus raw s).curX = s.curX := rfl
@[simp] theorem refreshStatus_fi (raw : Half) (s : State) : (refreshStatus raw s).fi = s.fi := rfl
@[simp] theorem refreshStatus_tn (raw : Half) (s : State) : (refreshStatus raw s).tn = s.tn := rfl
@[simp] theorem refreshStatus_rxh (raw : Half) (s : State) : (refreshStatus raw s).rxh = s.rxh := rfl
@[simp] theorem refreshStatus_rxl (raw : Half) (s : State) : (refreshStatus raw s).rxl = s.rxl := rfl
@[simp] theorem refreshStatus_hold (raw : Half) (s : State) : (refreshStatus raw s).hold = s.hold := rfl
@[simp] theorem refreshStatus_pend (raw : Half) (s : State) : (refreshStatus raw s).pend = s.pend := rfl
@[simp] theorem refreshStatus_settleWaits (raw : Half) (s : State) : (refreshStatus raw s).settleWaits = s.settleWaits := rfl
@[simp] theorem refreshStatus_cfg (raw : Half) (s : State) : (refreshStatus raw s).cfg = s.cfg := rfl
@[simp] theorem refreshStatus_inputs (raw : Half) (s : State) : (refreshStatus raw s).inputs = s.inputs := rfl
@[simp] theorem refreshStatus_out (raw : Half) (s : State) : (refreshStatus raw s).out = s.out := rfl

/-! ### Reset and the environment -/

@[simp] theorem resetBlock_sla (s : State) : (resetBlock s).sla = s.cfg.slaReset := rfl
@[simp] theorem resetBlock_stat (s : State) : (resetBlock s).stat = State.reset.stat := rfl
@[simp] theorem resetBlock_statV (s : State) : (resetBlock s).statV = State.reset.statV := rfl
@[simp] theorem resetBlock_res (s : State) : (resetBlock s).res = State.reset.res := rfl
@[simp] theorem resetBlock_err (s : State) : (resetBlock s).err = State.reset.err := rfl
@[simp] theorem resetBlock_errInfo (s : State) : (resetBlock s).errInfo = State.reset.errInfo := rfl
@[simp] theorem resetBlock_phase (s : State) : (resetBlock s).phase = State.reset.phase := rfl
@[simp] theorem resetBlock_curCw (s : State) : (resetBlock s).curCw = State.reset.curCw := rfl
@[simp] theorem resetBlock_curX (s : State) : (resetBlock s).curX = State.reset.curX := rfl
@[simp] theorem resetBlock_fi (s : State) : (resetBlock s).fi = State.reset.fi := rfl
@[simp] theorem resetBlock_tn (s : State) : (resetBlock s).tn = State.reset.tn := rfl
@[simp] theorem resetBlock_rxh (s : State) : (resetBlock s).rxh = State.reset.rxh := rfl
@[simp] theorem resetBlock_rxl (s : State) : (resetBlock s).rxl = State.reset.rxl := rfl
@[simp] theorem resetBlock_hold (s : State) : (resetBlock s).hold = State.reset.hold := rfl
@[simp] theorem resetBlock_pend (s : State) : (resetBlock s).pend = State.reset.pend := rfl
@[simp] theorem resetBlock_settleWaits (s : State) : (resetBlock s).settleWaits = s.settleWaits := rfl
@[simp] theorem resetBlock_cfg (s : State) : (resetBlock s).cfg = s.cfg := rfl
@[simp] theorem resetBlock_inputs (s : State) : (resetBlock s).inputs = s.inputs := rfl
@[simp] theorem resetBlock_out (s : State) : (resetBlock s).out = s.out := rfl

/-- The bytes a stored answer leaves in the receive registers, as one record update. -/
theorem storeRx_eq (dest : Option RxReg) (b : Byte) (s : State) :
    storeRx dest b s = { s with
      rxh := if dest = some .rxh then b else s.rxh, rxl := if dest = some .rxl then b else s.rxl } := by
  rcases dest with _ | r
  · rfl
  · cases r <;> rfl

/-- The input ports read the same whatever the registers hold. -/
theorem now_congr {s t : State} (h : s.inputs = t.inputs) : s.now = t.now := by simp [State.now, h]

@[simp] theorem emit_now (e : Event) (s : State) : (emit e s).now = s.now := rfl
@[simp] theorem accept_now (s : State) : (accept s).now = s.now := rfl
@[simp] theorem respond_now (s : State) : (respond s).now = s.now := rfl
@[simp] theorem startFrame_now (s : State) : (startFrame s).now = s.now := rfl

/-- The values on the ports when some are listed for this step. -/
theorem now_cons {s : State} {c : Inputs} {rest : List Inputs} (h : s.inputs = c :: rest) : s.now = c := by
  simp [State.now, h]

/-- `withFetchWord` presents the table's word on the command port of an idle block. -/
@[simp] theorem withFetchWord_now (s : State) (nbits w : Nat) :
    (s.withFetchWord nbits w).now = { s.now with rst := false, cmdValid := true, cmdWord := tableWord nbits w } := rfl

@[simp] theorem withFetchWord_phase (s : State) (nbits w : Nat) : (s.withFetchWord nbits w).phase = .idle := rfl

end Sys2Proof.Machine
end

