-- ==== Sys2Proof/Laws/Ops.lean ====
section
/-! SUPPORT. One lemma per shared operation that says once everything it can do. -/

namespace Sys2Proof.Machine

/-! ### Results -/

theorem advanced_next_iff {r : Result} {t : State} : advanced r = .next t ↔ ∃ u, r = .next u ∧ t = advance u := by
  cases r <;> simp [advanced, eq_comm]

theorem advanced_of_next {r : Result} {u : State} (h : r = .next u) : advanced r = .next (advance u) := by
  rw [h]; rfl

/-- A step, when it answers, is a reset step or a step of the block after which the environment moves on. -/
theorem step_cases {s t : State} (h : step s = .next t) :
    (s.now.rst = true ∧ t = advance (resetBlock s)) ∨
    (s.now.rst = false ∧ ∃ u, blockStep s = .next u ∧ t = advance u) := by
  unfold step at h
  split at h
  · rename_i hr
    exact .inl ⟨hr, by simpa using h.symm⟩
  · rename_i hr
    exact .inr ⟨by simpa using hr, advanced_next_iff.mp h⟩

/-- What the block does at a step: wait, run or refuse the command it accepts, or go on with the one it latched. -/
theorem blockStep_cases {s u : State} (h : blockStep s = .next u) :
    (s.phase = .idle ∧ s.now.cmdValid = false ∧ u = s) ∨
    (s.phase = .idle ∧ s.now.cmdValid = true ∧ ∃ i, decode s.now.cmdWord = .ok i ∧ exec i (accept s) = .next u) ∨
    (s.phase = .idle ∧ s.now.cmdValid = true ∧ (∃ e, decode s.now.cmdWord = .error e) ∧
      u = raiseError .illegalCommand 0#8 (accept s)) ∨
    (s.phase ≠ .idle ∧ ∃ i, decode s.curCw = .ok i ∧ exec i s = .next u) := by
  have latched : ∀ {v : State}, runLatched v = .next u → ∃ i, decode v.curCw = .ok i ∧ exec i v = .next u := by
    intro v hv
    unfold runLatched at hv
    split at hv
    · exact ⟨_, ‹_›, hv⟩
    · cases hv
  unfold blockStep at h
  split at h
  case h_1 hp =>
    unfold idleStep at h
    split at h
    · rename_i hv
      unfold runAccepted at h
      split at h
      · exact .inr (.inl ⟨hp, hv, _, ‹_›, h⟩)
      · exact .inr (.inr (.inl ⟨hp, hv, ⟨_, ‹_›⟩, by simpa [rejectWord] using h.symm⟩))
    · rename_i hv
      exact .inl ⟨hp, by simpa using hv, by simpa using h.symm⟩
  all_goals
    rename_i hp
    exact .inr (.inr (.inr ⟨by simp [hp], latched h⟩))

/-! ### The frame engine -/

/-- An answer that lets the frame go on stores the byte it carries and moves to the next place. -/
theorem exchange_of_accepted {len : Nat} {done : State → State} {c : Slot} {d : BusDraw} {s : State}
    (h : accepted (answerTo c.prim d) = true) (hd : c.dest ≠ none → ∃ k, c.prim = .rd k) :
    exchange len done c (answerTo c.prim d) s =
      nextSlot len done (storeRx c.dest d.data (emit (.bus c.prim (answerTo c.prim d)) s)) := by
  obtain ⟨p, dest⟩ := c
  have plain : (∀ k, p ≠ .rd k) → dest = none := fun hp => by
    by_contra hn
    obtain ⟨k, hk⟩ := hd hn
    exact hp k hk
  cases p with
  | rd k => cases ht : d.timeout <;> simp_all [answerTo, accepted, exchange]
  | start | restart | stop | wr b =>
    obtain rfl := plain (by simp)
    cases ht : d.timeout <;> cases hn : d.nack <;> simp_all [answerTo, accepted, exchange, storeRx]

/-- An answer that refuses the primitive fails the frame. -/
theorem exchange_of_refused {len : Nat} {done : State → State} {c : Slot} {a : BusAnswer} {s : State}
    (h : accepted a = false) :
    exchange len done c a s = failFrame (if a = .nack then .nack else .timeout) c.prim (emit (.bus c.prim a) s) := by
  cases a <;> simp_all [accepted, exchange]

/-- Before the frame's end only `FI` moves. -/
theorem nextSlot_of_lt {len : Nat} {done : State → State} {s : State} (h : s.fi.toNat + 1 < len) (h16 : s.fi.toNat + 1 < 16) :
    nextSlot len done s = { s with fi := s.fi + 1#4 } := by
  have : (s.fi + 1#4).toNat = s.fi.toNat + 1 := by simp [BitVec.toNat_add]; omega
  simp [nextSlot, this, Nat.ne_of_lt h]

/-- At the frame's last place the transaction has completed. -/
theorem nextSlot_of_last {len : Nat} {done : State → State} {s : State} (h : s.fi.toNat + 1 = len) (h16 : s.fi.toNat + 1 < 16) :
    nextSlot len done s = done { s with fi := s.fi + 1#4 } := by
  have : (s.fi + 1#4).toNat = s.fi.toNat + 1 := by simp [BitVec.toNat_add]; omega
  simp [nextSlot, this, h]

/-- A frame step, when it answers, waits for BUS or acts on BUS's answer to the primitive at `FI`. -/
theorem frameStep_cases {F : List Slot} {done : State → State} {s t : State} (h : frameStep F done s = .next t) :
    ∃ c, F[s.fi.toNat]? = some c ∧
      ((s.now.busRsp = none ∧ t = s) ∨
        ∃ d, s.now.busRsp = some d ∧ t = exchange F.length done c (answerTo c.prim d) s) := by
  unfold frameStep at h
  split at h
  · cases h
  · rename_i c hc
    refine ⟨c, hc, ?_⟩
    split at h
    · exact .inl ⟨‹_›, by simpa using h.symm⟩
    · exact .inr ⟨_, ‹_›, by simpa using h.symm⟩

/-- The abort step, when it answers, waits for BUS or raises the pending error. -/
theorem abortStep_cases {s t : State} (h : abortStep s = .next t) :
    ∃ f, s.pend = some f ∧
      ((s.now.busRsp = none ∧ t = s) ∨
        ∃ d, s.now.busRsp = some d ∧
          t = raiseError (failKind f) (busErrInfo s.tn s.fi) (emit (.bus .stop (answerTo .stop d)) s)) := by
  unfold abortStep at h
  split at h
  · cases h
  · rename_i f hf
    refine ⟨f, hf, ?_⟩
    split at h
    · exact .inl ⟨‹_›, by simpa using h.symm⟩
    · exact .inr ⟨_, ‹_›, by simpa using h.symm⟩

/-- A failed primitive, as one of two states. -/
theorem failFrame_cases (f : BusFail) (p : Prim) (s : State) :
    (p = .stop ∧ failFrame f p s = raiseError (failKind f) (busErrInfo s.tn s.fi) s) ∨
    (p ≠ .stop ∧ failFrame f p s = { s with phase := .abort, pend := some f }) := by
  by_cases h : p = .stop <;> simp [failFrame, h]

/-! ### Shapes of commands -/

theorem immediate_next_iff {f : State → State} {s t : State} : immediate f s = .next t ↔ s.phase = .idle ∧ t = f s := by
  cases hp : s.phase <;> simp [immediate, hp, eq_comm]

/-- A transaction, when it answers, has started, made a step of its frame, or made the step of the abort STOP. -/
theorem transaction_cases {F : List Slot} {done : State → State} {s t : State} (h : transaction F done s = .next t) :
    (s.phase = .idle ∧ t = startFrame s) ∨ (s.phase = .run ∧ frameStep F done s = .next t) ∨
    (s.phase = .abort ∧ abortStep s = .next t) := by
  cases hp : s.phase <;> simp only [transaction, hp] at h
  case idle => exact .inl ⟨rfl, by simpa using h.symm⟩
  case run => exact .inr (.inl ⟨rfl, h⟩)
  case abort => exact .inr (.inr ⟨rfl, h⟩)
  case settle => cases h

/-- A raw transaction, when it answers, was refused by the width check or did what its transaction does. -/
theorem rawTransaction_cases {w : RegWidth} {reg : Byte} {F : List Slot} {done : State → State} {s t : State}
    (h : rawTransaction w reg F done s = .next t) :
    (s.phase = .idle ∧ regWidth reg ≠ some w ∧ t = raiseError .invalidRegisterWidth 0#8 s) ∨
    (transaction F done s = .next t ∧ (s.phase = .idle → regWidth reg = some w)) := by
  unfold rawTransaction at h
  split at h
  · rename_i hc
    exact .inl ⟨hc.1, hc.2, by simpa [rejectWidth] using h.symm⟩
  · rename_i hc
    exact .inr ⟨h, fun hp => by simpa [hp] using hc⟩

/-- A read-modify-write, when it answers, has started, made a step of its read or of its write, or made the step of the abort
STOP. -/
theorem readModifyWrite_cases {f : Half → Half} {done : State → State} {s t : State}
    (h : readModifyWrite f done s = .next t) :
    (s.phase = .idle ∧ t = startFrame s) ∨
    (s.phase = .run ∧ s.tn = 0#1 ∧ frameStep (frameR16 s.sla regConfig) startWrite s = .next t) ∨
    (s.phase = .run ∧ s.tn ≠ 0#1 ∧
      frameStep (frameW16 s.sla regConfig (f s.hold)) (fun u => done { u with res := zext32 (f u.hold) }) s = .next t) ∨
    (s.phase = .abort ∧ abortStep s = .next t) := by
  cases hp : s.phase <;> simp only [readModifyWrite, hp] at h
  case idle => exact .inl ⟨rfl, by simpa using h.symm⟩
  case run =>
    split at h
    · exact .inr (.inl ⟨rfl, ‹_›, h⟩)
    · exact .inr (.inr (.inl ⟨rfl, ‹_›, h⟩))
  case abort => exact .inr (.inr (.inr ⟨rfl, h⟩))
  case settle => cases h

theorem settleAnswered_iff {s : State} : settleAnswered s = true ↔ s.now.settleDone = some s.settleWaits := by
  simp [settleAnswered]

/-- The settle wait holds, or completes the command where TIMER answers this wait. -/
theorem settleStep_eq (s : State) : settleStep s = .next (if settleAnswered s then respond s else s) := by
  unfold settleStep
  split <;> simp_all

end Sys2Proof.Machine
end

