-- ==== Sys2Proof/Laws/Exec.lean ====
section
/-! SUPPORT. What every command with a frame has in common: in RUN it makes a step of the frame `frameOf` names, in ABORT the step of
the abort STOP; and the shape of the frames themselves. -/

namespace Sys2Proof.Machine

/-- In RUN a command with a frame makes one step of that frame. -/
theorem exec_run_eq_frameStep {i : Instr} {s : State} {F : List Slot} (hp : s.phase = .run) (hF : frameOf i s = some F) :
    ∃ done, exec i s = frameStep F done s := by
  cases i
  case setLimit which =>
    cases hr : limitReg which with
    | none => simp [frameOf, hr] at hF
    | some reg =>
      simp only [frameOf, hr, Option.map_some, Option.some.injEq] at hF
      subst hF
      exact ⟨_, by simp only [exec, execSetLimit, hr, transaction, hp]; rfl⟩
  case decodeTemp | decodeStatus | encodeLimit | init | getAlertPin | getAlertStatus => simp [frameOf] at hF
  case sleep | wakeup | tcritLock | tcritUnlock | windowLock | windowUnlock =>
    simp only [frameOf, frameOf.rmwFrame, Option.some.injEq] at hF
    subst hF
    by_cases ht : s.tn = 0#1
    · exact ⟨startWrite, by
        simp [exec, execSleep, execWakeup, execTcritLock, execTcritUnlock, execWindowLock, execWindowUnlock,
          readModifyWriteSettle, readModifyWrite, hp, ht]⟩
    · exact ⟨_, by
        simp only [exec, execSleep, execWakeup, execTcritLock, execTcritUnlock, execWindowLock, execWindowUnlock,
          readModifyWriteSettle, readModifyWrite, hp, ht, if_false]; rfl⟩
  all_goals
    simp only [frameOf, Option.some.injEq] at hF
    subst hF
    exact ⟨_, by
      simp only [exec, execWrite16, execWrite8, execRead16, execRead8, execGetTemperature, execSetResolution, execAlertEnable,
        execGetManufacturerId, execGetDeviceId, rawTransaction, transaction, hp, reduceCtorEq, false_and, if_false]; rfl⟩

/-- In ABORT a command with a frame makes the step of the abort STOP. -/
theorem exec_abort_eq_abortStep {i : Instr} {s : State} {F : List Slot} (hp : s.phase = .abort) (hF : frameOf i s = some F) :
    exec i s = abortStep s := by
  cases i
  case setLimit which =>
    cases hr : limitReg which with
    | none => simp [frameOf, hr] at hF
    | some reg => simp only [exec, execSetLimit, hr, transaction, hp]
  all_goals
    first
    | (simp [frameOf] at hF; done)
    | simp [exec, execWrite16, execWrite8, execRead16, execRead8, execGetTemperature, execSetResolution, execAlertEnable,
        execGetManufacturerId, execGetDeviceId, execSleep, execWakeup, execTcritLock, execTcritUnlock, execWindowLock,
        execWindowUnlock, rawTransaction, transaction, readModifyWriteSettle, readModifyWrite, hp]

/-- The four frames of R92, as the frames a command can run. -/
theorem frameOf_cases {i : Instr} {s : State} {F : List Slot} (hF : frameOf i s = some F) :
    (∃ reg v, F = frameW16 s.sla reg v) ∨ (∃ reg b, F = frameW8 s.sla reg b) ∨ (∃ reg, F = frameR16 s.sla reg) ∨
    (∃ reg, F = frameR8 s.sla reg) := by
  cases i
  case setLimit which =>
    cases hr : limitReg which with
    | none => simp [frameOf, hr] at hF
    | some reg => exact .inl ⟨_, _, by simpa [frameOf, hr] using hF.symm⟩
  case decodeTemp | decodeStatus | encodeLimit | init | getAlertPin | getAlertStatus => simp [frameOf] at hF
  case sleep | wakeup | tcritLock | tcritUnlock | windowLock | windowUnlock =>
    simp only [frameOf, frameOf.rmwFrame, Option.some.injEq] at hF
    subst hF
    split
    · exact .inr (.inr (.inl ⟨_, rfl⟩))
    · exact .inl ⟨_, _, rfl⟩
  case write16 | alertEnable => exact .inl ⟨_, _, by simpa [frameOf] using hF.symm⟩
  case write8 | setResolution => exact .inr (.inl ⟨_, _, by simpa [frameOf] using hF.symm⟩)
  case read16 | getTemperature | getManufacturerId | getDeviceId =>
    exact .inr (.inr (.inl ⟨_, by simpa [frameOf] using hF.symm⟩))
  case read8 => exact .inr (.inr (.inr ⟨_, by simpa [frameOf] using hF.symm⟩))

/-- A frame has at most eight places (R32). -/
theorem frameOf_length_le {i : Instr} {s : State} {F : List Slot} (hF : frameOf i s = some F) : F.length ≤ 8 := by
  rcases frameOf_cases hF with ⟨_, _, rfl⟩ | ⟨_, _, rfl⟩ | ⟨_, rfl⟩ | ⟨_, rfl⟩ <;>
    simp [frameW16, frameW8, frameR16, frameR8]

/-- A place of a frame that stores a byte is a read (R92). -/
theorem frameOf_dest {i : Instr} {s : State} {F : List Slot} (hF : frameOf i s = some F) {c : Slot} (hc : c ∈ F)
    (hd : c.dest ≠ none) : ∃ k, c.prim = .rd k := by
  have all : ∀ x ∈ F, x.dest = none ∨ ∃ k, x.prim = .rd k := by
    rcases frameOf_cases hF with ⟨_, _, rfl⟩ | ⟨_, _, rfl⟩ | ⟨_, rfl⟩ | ⟨_, rfl⟩ <;>
      simp [frameW16, frameW8, frameR16, frameR8, slot, slotInto]
  exact (all c hc).resolve_left hd

/-- A place of a frame is its STOP exactly when it is the last (R92). -/
theorem frameOf_stop_iff_last {i : Instr} {s : State} {F : List Slot} (hF : frameOf i s = some F) {k : Nat} {c : Slot}
    (hc : F[k]? = some c) : c.prim = .stop ↔ k + 1 = F.length := by
  have hk : k < F.length := by
    by_contra h
    simp [List.getElem?_eq_none (Nat.le_of_not_lt h)] at hc
  rcases frameOf_cases hF with ⟨_, _, rfl⟩ | ⟨_, _, rfl⟩ | ⟨_, rfl⟩ | ⟨_, rfl⟩ <;>
    simp only [frameW16, frameW8, frameR16, frameR8, List.length_cons, List.length_nil] at hk hc ⊢ <;>
    interval_cases k <;> simp [slot, slotInto] at hc <;> subst hc <;> simp

end Sys2Proof.Machine
end

