-- ==== Sys2Proof/Laws/PerInstr.lean ====
section
/-! SUPPORT. For every command: the three fields of its word are its opcode and its operand fields (30_encoding.md R60, R61, R64). -/

namespace Sys2Proof.Laws.EncodedFields

/-- The fields `OP`, `A` and `D` of a command's word. -/
def Statement (i : Instr) : Prop :=
  opField (encode i) = i.opcode ∧ aField (encode i) = i.aBits ∧ dField (encode i) = i.dBits

/-- One proof serves every command, since the encoder builds every word from the same three fields. -/
theorem fields (i : Instr) : Statement i :=
  ⟨opField_commandWord _ _ _, aField_commandWord _ _ _, dField_commandWord _ _ _⟩

theorem decodeTemp (raw : Half) : Statement (.decodeTemp raw) := fields _
theorem decodeStatus (raw : Half) : Statement (.decodeStatus raw) := fields _
theorem encodeLimit : Statement .encodeLimit := fields _
theorem write16 (reg : Byte) (v : Half) : Statement (.write16 reg v) := fields _
theorem write8 (reg : Byte) (b : Byte) : Statement (.write8 reg b) := fields _
theorem read16 (reg : Byte) : Statement (.read16 reg) := fields _
theorem read8 (reg : Byte) : Statement (.read8 reg) := fields _
theorem init (sla : SlaveAddr) : Statement (.init sla) := fields _
theorem getTemperature : Statement .getTemperature := fields _
theorem setResolution (code : BitVec 2) : Statement (.setResolution code) := fields _
theorem setLimit (which : BitVec 2) : Statement (.setLimit which) := fields _
theorem alertEnable (hyst : BitVec 2) (mode : BitVec 1) : Statement (.alertEnable hyst mode) := fields _
theorem getAlertPin : Statement .getAlertPin := fields _
theorem getAlertStatus : Statement .getAlertStatus := fields _
theorem sleep : Statement .sleep := fields _
theorem wakeup : Statement .wakeup := fields _
theorem tcritLock : Statement .tcritLock := fields _
theorem tcritUnlock : Statement .tcritUnlock := fields _
theorem windowLock : Statement .windowLock := fields _
theorem windowUnlock : Statement .windowUnlock := fields _
theorem getManufacturerId : Statement .getManufacturerId := fields _
theorem getDeviceId : Statement .getDeviceId := fields _

end Sys2Proof.Laws.EncodedFields
end

