-- ==== Sys2Proof/Tests/Slice0.lean ====
section
/-! SUPPORT. The model's own tests: every constructor's word written out from the spec's encoding, the well-formedness check refusing an
ill-formed term, one-step results taken from the vectors of 95_test_vectors.md, and for every statement with hypotheses a state and
operands that meet them. -/

namespace Sys2Proof.Machine.Tests

open Sys2Proof Sys2Proof.Machine

/-! ### Well-formedness -/

theorem test_wf_refuses_limit_selector_three : (Instr.setLimit 3#2).wf = false := by decide
theorem test_wf_accepts_limit_selector_two : (Instr.setLimit 2#2).wf = true := by decide

/-! ### Decoding: words written out as `0x<D><A><OP>` from R61 -/

theorem test_decode_decode_temp : decode 0x9C900001#32 = .ok (.decodeTemp 0x9C90#16) := by decide
theorem test_decode_decode_status : decode 0x40000002#32 = .ok (.decodeStatus 0x4000#16) := by decide
theorem test_decode_encode_limit : decode 0x00000003#32 = .ok .encodeLimit := by decide
theorem test_decode_write16 : decode 0x01C00210#32 = .ok (.write16 0x02#8 0x01C0#16) := by decide
theorem test_decode_write8 : decode 0x00FF0811#32 = .ok (.write8 0x08#8 0xFF#8) := by decide
theorem test_decode_read16 : decode 0x00000612#32 = .ok (.read16 0x06#8) := by decide
theorem test_decode_read8 : decode 0x00000813#32 = .ok (.read8 0x08#8) := by decide
theorem test_decode_init : decode 0x007F0020#32 = .ok (.init 0x7F#7) := by decide
theorem test_decode_get_temperature : decode 0x00000021#32 = .ok .getTemperature := by decide
theorem test_decode_set_resolution : decode 0x00030022#32 = .ok (.setResolution 3#2) := by decide
theorem test_decode_set_limit : decode 0x00000123#32 = .ok (.setLimit 1#2) := by decide
theorem test_decode_alert_enable : decode 0x00060024#32 = .ok (.alertEnable 2#2 1#1) := by decide
theorem test_decode_get_alert_pin : decode 0x00000025#32 = .ok .getAlertPin := by decide
theorem test_decode_get_alert_status : decode 0x00000026#32 = .ok .getAlertStatus := by decide
theorem test_decode_sleep : decode 0x00000027#32 = .ok .sleep := by decide
theorem test_decode_wakeup : decode 0x00000028#32 = .ok .wakeup := by decide
theorem test_decode_tcrit_lock : decode 0x00000029#32 = .ok .tcritLock := by decide
theorem test_decode_tcrit_unlock : decode 0x0000002A#32 = .ok .tcritUnlock := by decide
theorem test_decode_window_lock : decode 0x0000002B#32 = .ok .windowLock := by decide
theorem test_decode_window_unlock : decode 0x0000002C#32 = .ok .windowUnlock := by decide
theorem test_decode_get_manufacturer_id : decode 0x0000002D#32 = .ok .getManufacturerId := by decide
theorem test_decode_get_device_id : decode 0x0000002E#32 = .ok .getDeviceId := by decide

theorem test_reject_unassigned_op : decode 0x00000004#32 = .error (.unknownOpcode 0x04#8) := by decide
theorem test_reject_reserved_a : decode 0x00000101#32 = .error .reservedBits := by decide
theorem test_reject_reserved_d15 : decode 0x80000025#32 = .error .reservedBits := by decide
theorem test_reject_write8_d8 : decode 0x01000011#32 = .error .reservedBits := by decide
theorem test_reject_limit_which_3 : decode 0x00000323#32 = .error .limitSelector := by decide
theorem test_reject_limit_a2 : decode 0x00000723#32 = .error .reservedBits := by decide

/-! ### One-step results -/

/-- BUS answers OK, ACK or the byte `b`. -/
def pass (b : Byte) : Inputs := { quietInputs with busRsp := some { timeout := false, nack := false, data := b } }

/-- BUS does not acknowledge. -/
def nackd : Inputs := { quietInputs with busRsp := some { timeout := false, nack := true, data := 0#8 } }

/-- BUS reports a timeout. -/
def timedOut : Inputs := { quietInputs with busRsp := some { timeout := true, nack := false, data := 0#8 } }

/-- The host presents the word `w` with the operand `x`. -/
def cmd (w x : Word) : Inputs := { quietInputs with cmdValid := true, cmdWord := w, cmdX := x }

/-- A block in RUN at the primitive `fi` of the command whose word is `w`, with the bytes `h` and `l` received. -/
def running (w : Word) (tn : BitVec 1) (fi : BitVec 4) (h l : Byte) (ins : List Inputs) : State :=
  { State.reset with phase := .run, curCw := w, tn := tn, fi := fi, rxh := h, rxl := l, inputs := ins }

/-- An idle block with the given inputs. -/
def idleWith (ins : List Inputs) : State := { State.reset with inputs := ins }

/-- TIMER answers the settle wait of number `n`. -/
def timer (n : Nat) : Inputs := { quietInputs with settleDone := some n }

/-- SLEEP in the second settle wait of this block, the first one abandoned by a reset. -/
def settling (ins : List Inputs) : State :=
  { running 0x00000027#32 1#1 6#4 0#8 0#8 ins with phase := .settle, settleWaits := 2 }

/-- A part of the next state, if there is one. -/
def next? {α : Type} (r : Result) (f : State → α) : Option α :=
  match r with
  | .next t => some (f t)
  | .fault _ | .refused _ => none

-- 95_test_vectors.md section 2.1
theorem test_decode_temp_negative : next? (step (idleWith [cmd 0x1E700001#32 0#32])) State.res = some 0x00002190#32 := by decide
theorem test_decode_temp_most_negative : next? (step (idleWith [cmd 0x10000001#32 0#32])) State.res = some 0x00003000#32 := by decide
theorem test_decode_status_upper : next? (step (idleWith [cmd 0x40000002#32 0#32])) State.res = some 0x00000002#32 := by decide
-- section 2.2
theorem test_encode_limit_inc1 : next? (step (idleWith [cmd 0x00000003#32 0x001B199A#32])) State.res = some 0x000001B2#32 := by decide
theorem test_encode_limit_ceil : encodeLimit .ceilQuarter 0x001B199A#32 = 0x01B4#16 := by decide
-- sections 2.3 and 2.4: the step of the final STOP, and the first failures
theorem test_write16_result : next? (step (running 0x01C00210#32 0#1 5#4 0#8 0#8 [pass 0#8])) State.res = some 0x000001C0#32 := by decide
theorem test_write16_high_byte_first : busReq (running 0x01C00210#32 0#1 3#4 0#8 0#8 []) = some (.wr 0x01#8) := by decide
theorem test_write8_width_error : next? (step (idleWith [cmd 0x00000111#32 0#32])) (fun t => (t.err, t.out.length)) = some (3#3, 1) := by decide
theorem test_write8_result : next? (step (running 0x00FF0811#32 0#1 4#4 0#8 0#8 [pass 0#8])) State.res = some 0x000000FF#32 := by decide
theorem test_read16_result : next? (step (running 0x00000612#32 0#1 7#4 0x41#8 0xD0#8 [pass 0#8])) State.res = some 0x000041D0#32 := by decide
theorem test_read16_first_byte_is_high : next? (step (running 0x00000612#32 0#1 5#4 0#8 0#8 [pass 0x41#8])) State.rxh = some 0x41#8 := by decide
theorem test_read8_result : next? (step (running 0x00000813#32 0#1 6#4 0#8 0x03#8 [pass 0#8])) State.res = some 0x00000003#32 := by decide
theorem test_init_sets_sla : next? (step (idleWith [cmd 0x00190020#32 0#32])) State.sla = some 0x19#7 := by decide
theorem test_get_temperature_result : next? (step (running 0x00000021#32 0#1 7#4 0x41#8 0xD0#8 [pass 0#8])) (fun t => (t.res, t.stat, t.statV)) = some (0x000201D0#32, 0b010#3, 1#1) := by decide
theorem test_get_temperature_timeout : next? (step (running 0x00000021#32 0#1 5#4 0#8 0#8 [timedOut])) (fun t => (t.phase, t.stat, t.statV)) = some (.abort, 0#3, 0#1) := by decide
theorem test_set_resolution_result : next? (step (running 0x00030022#32 0#1 4#4 0#8 0#8 [pass 0#8])) State.res = some 0x00000003#32 := by decide
theorem test_set_limit_low_byte : busReq { running 0x00000123#32 0#1 4#4 0#8 0#8 [] with curX := 0xFFEC0000#32 } = some (.wr 0xC0#8) := by decide
theorem test_alert_enable_result : next? (step (running 0x00070024#32 0#1 5#4 0#8 0#8 [pass 0#8])) State.res = some 0x0000061D#32 := by decide
theorem test_get_alert_pin : next? (step (idleWith [{ cmd 0x00000025#32 0#32 with alertIn := true }])) State.res = some 0x00000001#32 := by decide
theorem test_get_alert_status : next? (step ({ idleWith [cmd 0x00000026#32 0#32] with stat := 0b010#3, statV := 1#1 })) State.res = some 0x0000000A#32 := by decide
theorem test_sleep_waits_for_timer : next? (step { running 0x00000027#32 1#1 5#4 0#8 0#8 [pass 0#8] with hold := 0x0019#16 }) (fun t => (t.phase, t.res)) = some (.settle, 0x00000119#32) := by decide
theorem test_sleep_ends_at_its_answer : next? (step (settling [timer 2])) State.phase = some .idle := by decide
theorem test_sleep_ignores_a_late_answer : next? (step (settling [timer 1])) id = some (settling []) := by decide
theorem test_wakeup_clears_bit_8 : busReq { running 0x00000028#32 1#1 3#4 0#8 0#8 [] with hold := 0x0119#16 } = some (.wr 0x00#8) := by decide
theorem test_tcrit_lock_holds_the_value_read : next? (step (running 0x00000029#32 0#1 7#4 0x00#8 0x19#8 [pass 0#8])) (fun t => (t.hold, t.tn, t.fi)) = some (0x0019#16, 1#1, 0#4) := by decide
theorem test_tcrit_lock_result : next? (step ({ running 0x00000029#32 1#1 5#4 0#8 0#8 [pass 0#8] with hold := 0x0019#16 })) State.res = some 0x00000099#32 := by decide
theorem test_tcrit_unlock_result : next? (step ({ running 0x0000002A#32 1#1 5#4 0#8 0#8 [pass 0#8] with hold := 0x00D9#16 })) State.res = some 0x00000059#32 := by decide
theorem test_window_lock_result : next? (step ({ running 0x0000002B#32 1#1 5#4 0#8 0#8 [pass 0#8] with hold := 0x0019#16 })) State.res = some 0x00000059#32 := by decide
theorem test_window_unlock_result : next? (step ({ running 0x0000002C#32 1#1 5#4 0#8 0#8 [pass 0#8] with hold := 0xFFFF#16 })) State.res = some 0x0000FFBF#32 := by decide
theorem test_get_manufacturer_id_result : next? (step (running 0x0000002D#32 0#1 7#4 0x00#8 0x54#8 [pass 0#8])) State.res = some 0x00000054#32 := by decide
theorem test_get_device_id_result : next? (step (running 0x0000002E#32 0#1 7#4 0x04#8 0x00#8 [pass 0#8])) State.res = some 0x00000400#32 := by decide
-- the abort STOP: WRITE16 with a NACK at index 2, then any answer (section 2.3)
theorem test_nack_enters_abort : next? (step (running 0x01C00210#32 0#1 2#4 0#8 0#8 [nackd])) (fun t => (t.phase, t.fi, t.pend)) = some (.abort, 2#4, some .nack) := by decide
theorem test_abort_stop_reports : next? (step { running 0x01C00210#32 1#1 2#4 0#8 0#8 [timedOut] with phase := .abort, pend := some .nack }) (fun t => (t.err, t.errInfo, t.phase)) = some (1#3, 0x12#8, .idle) := by decide
theorem test_final_stop_timeout_reports : next? (step (running 0x01C00210#32 0#1 5#4 0#8 0#8 [timedOut])) (fun t => (t.err, t.errInfo, t.phase)) = some (2#3, 0x05#8, .idle) := by decide
theorem test_reset_mid_frame : next? (step { running 0x01C00210#32 0#1 2#4 0#8 0#8 [{ quietInputs with rst := true }] with sla := 0x1A#7 }) (fun t => (t.phase, t.sla, t.out)) = some (.idle, 0x18#7, []) := by decide
theorem test_fetch_word_runs : next? (step (State.reset.withFetchWord 32 0x00000021)) (fun t => (t.phase, t.curCw)) = some (.run, 0x00000021#32) := by decide

/-! ### Witnesses: a state and operands that meet the hypotheses of each statement -/

theorem witness_EncodedCommandDecodesToItself :
    (Instr.setLimit 2#2).wf = true := by decide
theorem witness_DecodedWordIsTheEncodingOfItsCommand :
    decode 0xFFFF0110#32 = .ok (.write16 0x01#8 0xFFFF#16) := by decide
theorem witness_WordDecodesExactlyWhenItSelectsARow_unique :
    opcodeRows[21]? = some ⟨0x0000002E#32, 0xFFFFFFFF#32⟩ ∧ 0x0000002E#32 &&& 0xFFFFFFFF#32 = 0x0000002E#32 := by decide
theorem witness_DecodeTempReturnsSignMagnitudeAndFlags :
    (idleWith [cmd 0#32 0#32]).phase = .idle := by decide
theorem witness_DecodeStatusReturnsTheThreeFlags :
    (idleWith [cmd 0#32 0#32]).phase = .idle := by decide
theorem witness_EncodeLimitReturnsTheLimitWord :
    (idleWith [cmd 0#32 0#32]).phase = .idle := by decide
theorem witness_InitSetsTheSlaveAddress :
    (idleWith [cmd 0#32 0#32]).phase = .idle := by decide
theorem witness_GetAlertPinSamplesTheLine :
    (idleWith [cmd 0#32 0#32]).phase = .idle := by decide
theorem witness_GetAlertStatusReturnsTheCache :
    (idleWith [cmd 0#32 0#32]).phase = .idle := by decide
theorem witness_DecodedMagnitudeRange_positive :
    (decodeTemp 0x0FFF#16).sign = 0#1 ∧ (decodeTemp 0x0FFF#16).mag.toNat = 4095 := by decide
theorem witness_DecodedMagnitudeRange_negative :
    (decodeTemp 0x1000#16).sign = 1#1 ∧ (decodeTemp 0x1000#16).mag.toNat = 4096 := by decide
theorem witness_LimitWordFormat_top :
    -32768 ≤ roundLimit .inc1 (limitSixteenths 0x07FFC000#32) ∧ roundLimit .inc1 (limitSixteenths 0x07FFC000#32) ≤ 32767 := by decide
theorem witness_LimitWordFormat_bottom :
    -32768 ≤ roundLimit .ceilQuarter (limitSixteenths 0xF8000000#32) ∧ roundLimit .ceilQuarter (limitSixteenths 0xF8000000#32) ≤ 32767 := by decide
theorem witness_EncodeLimitIsMonotoneWithoutWrap :
    (0xF8000000#32).toInt ≤ (0x07FFC000#32).toInt ∧ -32768 ≤ roundLimit .inc1 (limitSixteenths 0xF8000000#32) ∧
    roundLimit .inc1 (limitSixteenths 0x07FFC000#32) ≤ 32767 := by decide
theorem witness_QuarterDegreeLimitsEncodeExactly :
    (0xF8000000#32).toInt % 16384 = 0 ∧ -32768 * 4096 ≤ (0xF8000000#32).toInt ∧ (0xF8000000#32).toInt ≤ 32767 * 4096 := by decide
theorem witness_CodecCommandsNeverFail :
    isCodec .encodeLimit = true ∧ (idleWith []).phase = .idle := by decide
theorem witness_AcceptingStepRunsTheDecodedCommand :
    (idleWith [cmd 0x00000021#32 0#32]).phase = .idle ∧ (idleWith [cmd 0x00000021#32 0#32]).now.rst = false ∧
    (idleWith [cmd 0x00000021#32 0#32]).now.cmdValid = true ∧
    decode (idleWith [cmd 0x00000021#32 0#32]).now.cmdWord = .ok .getTemperature := by decide
theorem witness_BusyStepRunsTheLatchedCommand :
    (running 0x00000021#32 0#1 7#4 0#8 0#8 [pass 0#8]).phase ≠ .idle ∧
    (running 0x00000021#32 0#1 7#4 0#8 0#8 [pass 0#8]).now.rst = false ∧
    decode (running 0x00000021#32 0#1 7#4 0#8 0#8 [pass 0#8]).curCw = .ok .getTemperature := by decide
theorem witness_IdleBlockWaits :
    (idleWith [{ quietInputs with settleDone := some 0 }]).phase = .idle ∧
    (idleWith [{ quietInputs with settleDone := some 0 }]).now.rst = false ∧
    (idleWith [{ quietInputs with settleDone := some 0 }]).now.cmdValid = false := by decide
theorem witness_IllegalWordEndsAtOnce :
    (idleWith [cmd 0x00000323#32 0#32]).phase = .idle ∧ (idleWith [cmd 0x00000323#32 0#32]).pend = none ∧
    (idleWith [cmd 0x00000323#32 0#32]).now.rst = false ∧ (idleWith [cmd 0x00000323#32 0#32]).now.cmdValid = true ∧
    ∀ r ∈ opcodeRows, selectsRow (idleWith [cmd 0x00000323#32 0#32]).now.cmdWord r = false := by decide
theorem witness_CommandPortHasNoEffectWhileBusy :
    (running 0x00000021#32 0#1 5#4 0#8 0#8 []).phase ≠ .idle := by decide
theorem witness_EveryCommandRespondsOnceWhenItEnds :
    (idleWith [cmd 0x00000026#32 0#32]).now.rst = false ∧ (idleWith [cmd 0x00000026#32 0#32]).now.cmdValid = true ∧
    next? (step (idleWith [cmd 0x00000026#32 0#32])) State.phase = some .idle := by decide
theorem witness_EveryCommandRespondsOnceWhenItEnds_goes_on :
    (running 0x00000021#32 0#1 2#4 0#8 0#8 [pass 0#8]).phase ≠ .idle ∧
    next? (step (running 0x00000021#32 0#1 2#4 0#8 0#8 [pass 0#8])) State.phase = some .run := by decide
theorem witness_WidthMismatchIsRefusedBeforeAnyPrimitive :
    (idleWith []).phase = .idle ∧ (idleWith []).pend = none ∧ ¬ (1 ≤ (0x00#8).toNat ∧ (0x00#8).toNat ≤ 7) ∧
    ¬ (1 ≤ (0x08#8).toNat ∧ (0x08#8).toNat ≤ 7) ∧ (0x07#8).toNat ≠ 8 ∧ (0x09#8).toNat ≠ 8 := by decide
theorem witness_LimitSelectorThreeIsIllegal :
    (idleWith []).phase = .idle ∧ (idleWith []).pend = none := by decide
theorem witness_FramedCommandStartsItsFrame :
    (idleWith []).phase = .idle ∧ widthOk (.write16 0x07#8 0#16) = true ∧
    frameOf (.write16 0x07#8 0#16) (idleWith []) = some (frameW16 0x18#7 0x07#8 0#16) := by decide
theorem witness_AnsweredPrimitiveAdvancesTheFrame :
    (running 0x00000612#32 0#1 5#4 0#8 0#8 [pass 0x41#8]).phase = .run ∧
    frameOf (.read16 0x06#8) (running 0x00000612#32 0#1 5#4 0#8 0#8 [pass 0x41#8]) = some (frameR16 0x18#7 0x06#8) ∧
    (frameR16 0x18#7 0x06#8)[5]? = some (slotInto (.rd true) .rxh) ∧ 5 + 1 < (frameR16 0x18#7 0x06#8).length ∧
    (running 0x00000612#32 0#1 5#4 0#8 0#8 [pass 0x41#8]).now.busRsp = some (drawAt (pass 0x41#8)) ∧
    accepted (answerTo (.rd true) (drawAt (pass 0x41#8))) = true := by decide
theorem witness_RefusedPrimitiveEntersAbort :
    (running 0x00000612#32 0#1 4#4 0#8 0#8 [nackd]).phase = .run ∧
    frameOf (.read16 0x06#8) (running 0x00000612#32 0#1 4#4 0#8 0#8 [nackd]) = some (frameR16 0x18#7 0x06#8) ∧
    (frameR16 0x18#7 0x06#8)[4]? = some (slot (.wr 0x31#8)) ∧ (slot (.wr 0x31#8)).prim ≠ .stop ∧
    (running 0x00000612#32 0#1 4#4 0#8 0#8 [nackd]).now.busRsp = some (drawAt nackd) ∧ accepted (answerTo (.wr 0x31#8) (drawAt nackd)) = false := by decide
theorem witness_UnansweredBlockWaits_run :
    (frameOf (.read16 0x06#8) (running 0x00000612#32 0#1 5#4 0#8 0#8 [])).isSome = true ∧ (running 0x00000612#32 0#1 5#4 0#8 0#8 []).now.busRsp = none ∧ (running 0x00000612#32 0#1 5#4 0#8 0#8 []).phase = .run ∧
    (primAt (frameOf (.read16 0x06#8) (running 0x00000612#32 0#1 5#4 0#8 0#8 [])) (running 0x00000612#32 0#1 5#4 0#8 0#8 [])).isSome = true := by decide
theorem witness_UnansweredBlockWaits_abort :
    (frameOf (.read16 0x06#8) { running 0x00000612#32 0#1 5#4 0#8 0#8 [] with phase := .abort, pend := some .timeout }).isSome = true ∧
    State.now { running 0x00000612#32 0#1 5#4 0#8 0#8 [] with phase := .abort, pend := some .timeout } = quietInputs ∧
    State.phase { running 0x00000612#32 0#1 5#4 0#8 0#8 [] with phase := .abort, pend := some .timeout } = .abort ∧
    State.pend { running 0x00000612#32 0#1 5#4 0#8 0#8 [] with phase := .abort, pend := some .timeout } ≠ none := by decide
theorem witness_AbortStopEndsTheCommand :
    (frameOf (.read16 0x06#8) { running 0x00000612#32 0#1 5#4 0#8 0#8 [timedOut] with phase := .abort, pend := some .timeout }).isSome = true ∧
    State.phase { running 0x00000612#32 0#1 5#4 0#8 0#8 [timedOut] with phase := .abort, pend := some .timeout } = .abort ∧
    State.pend { running 0x00000612#32 0#1 5#4 0#8 0#8 [timedOut] with phase := .abort, pend := some .timeout } = some .timeout ∧
    (State.now { running 0x00000612#32 0#1 5#4 0#8 0#8 [timedOut] with phase := .abort, pend := some .timeout }).busRsp = some (drawAt timedOut) := by decide

/-- A WRITE16 in RUN whose third primitive is refused, with an answer to the abort STOP. -/
def failing : State := running 0x01C00210#32 0#1 0#4 0#8 0#8 [pass 0#8, pass 0#8, nackd, timedOut]

/-- A WRITE16 in RUN whose final STOP times out. -/
def failingStop : State :=
  running 0x01C00210#32 0#1 0#4 0#8 0#8 [pass 0#8, pass 0#8, pass 0#8, pass 0#8, pass 0#8, timedOut]

/-- The frame of that WRITE16. -/
def failingFrame : List Slot := frameW16 0x18#7 0x02#8 0x01C0#16

theorem witness_FailedFrameEndsItsCommand_before_stop :
    failing.phase = .run ∧ failing.fi = 0#4 ∧ failing.pend = none ∧ decode failing.curCw = .ok (.write16 0x02#8 0x01C0#16) ∧
    frameOf (.write16 0x02#8 0x01C0#16) failing = some failingFrame ∧ failingFrame[2]? = some (slot (.wr 0x02#8)) ∧
    serves ((failingFrame.take 2).map Slot.prim) [pass 0#8, pass 0#8] = true ∧ nackd.rst = false ∧
    accepted (answerTo (.wr 0x02#8) (drawAt nackd)) = false ∧ timedOut.rst = false ∧ timedOut.busRsp = some (drawAt timedOut) ∧
    failing.inputs = [pass 0#8, pass 0#8] ++ nackd :: timedOut :: [] := by decide
theorem witness_FailedFrameEndsItsCommand_at_stop :
    failingStop.phase = .run ∧ failingStop.fi = 0#4 ∧ failingStop.pend = none ∧
    decode failingStop.curCw = .ok (.write16 0x02#8 0x01C0#16) ∧
    frameOf (.write16 0x02#8 0x01C0#16) failingStop = some failingFrame ∧ failingFrame[5]? = some (slot .stop) ∧
    serves ((failingFrame.take 5).map Slot.prim) (List.replicate 5 (pass 0#8)) = true ∧
    accepted (answerTo .stop (drawAt timedOut)) = false ∧
    failingStop.inputs = List.replicate 5 (pass 0#8) ++ timedOut :: [] := by decide
theorem witness_ExchangedPrimitiveIsTheOneRequested :
    failing.now.rst = false ∧ busReq failing = some .start ∧ next? (step failing) State.fi = some 1#4 := by decide
theorem witness_WriteCommandsCompleteAtTheFinalStop :
    (running 0x01C00210#32 0#1 5#4 0x41#8 0xD0#8 [pass 0#8]).phase = .run ∧ (running 0x01C00210#32 0#1 5#4 0x41#8 0xD0#8 [pass 0#8]).tn = 0#1 ∧
    (running 0x01C00210#32 0#1 5#4 0x41#8 0xD0#8 [pass 0#8]).fi = 5#4 ∧
    (running 0x01C00210#32 0#1 5#4 0x41#8 0xD0#8 [pass 0#8]).now.busRsp = some (drawAt (pass 0#8)) ∧ (drawAt (pass 0#8)).timeout = false := by decide
theorem witness_WriteCommandsCompleteAtTheFinalStop_8_bit :
    (running 0x00FF0811#32 0#1 4#4 0x41#8 0xD0#8 [pass 0#8]).phase = .run ∧ (running 0x00FF0811#32 0#1 4#4 0x41#8 0xD0#8 [pass 0#8]).tn = 0#1 ∧
    (running 0x00FF0811#32 0#1 4#4 0x41#8 0xD0#8 [pass 0#8]).fi = 4#4 ∧
    (running 0x00FF0811#32 0#1 4#4 0x41#8 0xD0#8 [pass 0#8]).now.busRsp = some (drawAt (pass 0#8)) ∧ (drawAt (pass 0#8)).timeout = false := by decide
theorem witness_ReadCommandsCompleteAtTheFinalStop :
    (running 0x00000612#32 0#1 7#4 0x41#8 0xD0#8 [pass 0#8]).phase = .run ∧ (running 0x00000612#32 0#1 7#4 0x41#8 0xD0#8 [pass 0#8]).tn = 0#1 ∧
    (running 0x00000612#32 0#1 7#4 0x41#8 0xD0#8 [pass 0#8]).fi = 7#4 ∧
    (running 0x00000612#32 0#1 7#4 0x41#8 0xD0#8 [pass 0#8]).now.busRsp = some (drawAt (pass 0#8)) ∧ (drawAt (pass 0#8)).timeout = false := by decide
theorem witness_ReadCommandsCompleteAtTheFinalStop_8_bit :
    (running 0x00000813#32 0#1 6#4 0x41#8 0xD0#8 [pass 0#8]).phase = .run ∧ (running 0x00000813#32 0#1 6#4 0x41#8 0xD0#8 [pass 0#8]).tn = 0#1 ∧
    (running 0x00000813#32 0#1 6#4 0x41#8 0xD0#8 [pass 0#8]).fi = 6#4 ∧
    (running 0x00000813#32 0#1 6#4 0x41#8 0xD0#8 [pass 0#8]).now.busRsp = some (drawAt (pass 0#8)) ∧ (drawAt (pass 0#8)).timeout = false := by decide
theorem witness_GetTemperatureRefreshesTheStatusCache :
    (running 0x00000021#32 0#1 7#4 0x41#8 0xD0#8 [pass 0#8]).phase = .run ∧ (running 0x00000021#32 0#1 7#4 0x41#8 0xD0#8 [pass 0#8]).tn = 0#1 ∧
    (running 0x00000021#32 0#1 7#4 0x41#8 0xD0#8 [pass 0#8]).fi = 7#4 ∧
    (running 0x00000021#32 0#1 7#4 0x41#8 0xD0#8 [pass 0#8]).now.busRsp = some (drawAt (pass 0#8)) ∧ (drawAt (pass 0#8)).timeout = false := by decide
theorem witness_RmwReadStartsTheWrite :
    (running 0x00000029#32 0#1 7#4 0x41#8 0xD0#8 [pass 0#8]).phase = .run ∧ (running 0x00000029#32 0#1 7#4 0x41#8 0xD0#8 [pass 0#8]).tn = 0#1 ∧
    (running 0x00000029#32 0#1 7#4 0x41#8 0xD0#8 [pass 0#8]).fi = 7#4 ∧
    (running 0x00000029#32 0#1 7#4 0x41#8 0xD0#8 [pass 0#8]).now.busRsp = some (drawAt (pass 0#8)) ∧ (drawAt (pass 0#8)).timeout = false ∧ isRmw .tcritLock = true := by decide
theorem witness_LockCommandsCompleteAtTheFinalStop :
    (running 0x00000029#32 1#1 5#4 0x41#8 0xD0#8 [pass 0#8]).phase = .run ∧ (running 0x00000029#32 1#1 5#4 0x41#8 0xD0#8 [pass 0#8]).tn = 1#1 ∧
    (running 0x00000029#32 1#1 5#4 0x41#8 0xD0#8 [pass 0#8]).fi = 5#4 ∧
    (running 0x00000029#32 1#1 5#4 0x41#8 0xD0#8 [pass 0#8]).now.busRsp = some (drawAt (pass 0#8)) ∧ (drawAt (pass 0#8)).timeout = false := by decide
theorem witness_PowerCommandsStartTheSettleWait :
    (running 0x00000027#32 1#1 5#4 0x41#8 0xD0#8 [pass 0#8]).phase = .run ∧ (running 0x00000027#32 1#1 5#4 0x41#8 0xD0#8 [pass 0#8]).tn = 1#1 ∧
    (running 0x00000027#32 1#1 5#4 0x41#8 0xD0#8 [pass 0#8]).fi = 5#4 ∧
    (running 0x00000027#32 1#1 5#4 0x41#8 0xD0#8 [pass 0#8]).now.busRsp = some (drawAt (pass 0#8)) ∧ (drawAt (pass 0#8)).timeout = false := by decide
theorem witness_SettleDoneCompletesThePowerCommand : (settling [timer 2]).phase = .settle := by decide

/-- BUS passes a frame of `n` primitives, with the bytes `h` and `l` at the places 5 and 6. -/
def passing (n : Nat) (h l : Byte) : List Inputs :=
  (List.range n).map fun k => if k = 5 then pass h else if k = 6 then pass l else pass 0#8

theorem witness_Write16RunsToCompletion_lowest :
    (idleWith ((cmd 0x01C00110#32 0#32) :: (passing 6 0x41#8 0xD0#8 ++ []))).phase = .idle ∧
    presents (encode (.write16 0x01#8 0x01C0#16)) (cmd 0x01C00110#32 0#32) = true ∧ 1 ≤ (0x01#8).toNat ∧ (0x01#8).toNat ≤ 7 ∧
    serves (primsW16 0x18#7 0x01#8 0x01C0#16) (passing 6 0x41#8 0xD0#8) = true := by decide
theorem witness_Write16RunsToCompletion_highest :
    (idleWith ((cmd 0x01C00710#32 0#32) :: (passing 6 0x41#8 0xD0#8 ++ []))).phase = .idle ∧
    presents (encode (.write16 0x07#8 0x01C0#16)) (cmd 0x01C00710#32 0#32) = true ∧ 1 ≤ (0x07#8).toNat ∧ (0x07#8).toNat ≤ 7 ∧
    serves (primsW16 0x18#7 0x07#8 0x01C0#16) (passing 6 0x41#8 0xD0#8) = true := by decide
theorem witness_Write8RunsToCompletion :
    (idleWith ((cmd 0x00FF0811#32 0#32) :: (passing 5 0x41#8 0xD0#8 ++ []))).phase = .idle ∧
    presents (encode (.write8 0x08#8 0xFF#8)) (cmd 0x00FF0811#32 0#32) = true ∧
    serves (primsW8 0x18#7 0x08#8 0xFF#8) (passing 5 0x41#8 0xD0#8) = true := by decide
theorem witness_RawSixteenBitReadsRunToCompletion :
    (idleWith ((cmd 0x00000712#32 0#32) :: (passing 8 0x41#8 0xD0#8 ++ []))).phase = .idle ∧
    presents (encode (.read16 0x07#8)) (cmd 0x00000712#32 0#32) = true ∧ 1 ≤ (0x07#8).toNat ∧ (0x07#8).toNat ≤ 7 ∧
    serves (primsR16 0x18#7 0x07#8) (passing 8 0x41#8 0xD0#8) = true := by decide
theorem witness_RawSixteenBitReadsRunToCompletion_manufacturer :
    (idleWith ((cmd 0x0000002D#32 0#32) :: (passing 8 0x41#8 0xD0#8 ++ []))).phase = .idle ∧
    presents (encode .getManufacturerId) (cmd 0x0000002D#32 0#32) = true ∧
    serves (primsR16 0x18#7 0x06#8) (passing 8 0x41#8 0xD0#8) = true := by decide
theorem witness_RawSixteenBitReadsRunToCompletion_device :
    (idleWith ((cmd 0x0000002E#32 0#32) :: (passing 8 0x41#8 0xD0#8 ++ []))).phase = .idle ∧
    presents (encode .getDeviceId) (cmd 0x0000002E#32 0#32) = true ∧
    serves (primsR16 0x18#7 0x07#8) (passing 8 0x41#8 0xD0#8) = true := by decide
theorem witness_Read8RunsToCompletion :
    (idleWith ((cmd 0x00000813#32 0#32) :: (passing 7 0x41#8 0xD0#8 ++ []))).phase = .idle ∧
    presents (encode (.read8 0x08#8)) (cmd 0x00000813#32 0#32) = true ∧
    serves (primsR8 0x18#7 0x08#8) (passing 7 0x41#8 0xD0#8) = true := by decide
theorem witness_GetTemperatureRunsToCompletion :
    (idleWith ((cmd 0x00000021#32 0#32) :: (passing 8 0x41#8 0xD0#8 ++ []))).phase = .idle ∧
    presents (encode .getTemperature) (cmd 0x00000021#32 0#32) = true ∧
    serves (primsR16 0x18#7 0x05#8) (passing 8 0x41#8 0xD0#8) = true := by decide
theorem witness_SetResolutionRunsToCompletion :
    (idleWith ((cmd 0x00030022#32 0#32) :: (passing 5 0x41#8 0xD0#8 ++ []))).phase = .idle ∧
    presents (encode (.setResolution 3#2)) (cmd 0x00030022#32 0#32) = true ∧
    serves (primsW8 0x18#7 0x08#8 ((3#2).setWidth 8)) (passing 5 0x41#8 0xD0#8) = true := by decide
theorem witness_SetLimitRunsToCompletion :
    (idleWith ((cmd 0x00000223#32 0x00640000#32) :: (passing 6 0x41#8 0xD0#8 ++ []))).phase = .idle ∧
    presents (encode (.setLimit 2#2)) (cmd 0x00000223#32 0x00640000#32) = true ∧ 2#2 ≠ 3#2 ∧
    serves (primsW16 0x18#7 0x04#8 (encodeLimit .inc1 0x00640000#32)) (passing 6 0x41#8 0xD0#8) = true := by decide
theorem witness_AlertEnableOverwritesConfig :
    (idleWith ((cmd 0x00070024#32 0#32) :: (passing 6 0x41#8 0xD0#8 ++ []))).phase = .idle ∧
    presents (encode (.alertEnable 3#2 1#1)) (cmd 0x00070024#32 0#32) = true ∧
    serves (primsW16 0x18#7 0x01#8 (0x0019#16 ||| (BitVec.setWidth 16 1#1 <<< 2) ||| (BitVec.setWidth 16 3#2 <<< 9))) (passing 6 0x41#8 0xD0#8) = true := by decide
theorem witness_LockCommandsRunToCompletion :
    presents (encode .tcritLock) (cmd 0x00000029#32 0#32) = true ∧
    serves (primsR16 0x18#7 0x01#8) (passing 8 0x00#8 0x19#8) = true ∧ byteAt (passing 8 0x00#8 0x19#8) 5 = 0x00#8 ∧
    byteAt (passing 8 0x00#8 0x19#8) 6 = 0x19#8 ∧ 0x0099#16 = 0x0019#16 ||| 0x0080#16 ∧
    serves (primsW16 0x18#7 0x01#8 0x0099#16) (passing 6 0#8 0#8) = true := by decide
theorem witness_PowerCommandsRunToCompletion :
    presents (encode .sleep) (cmd 0x00000027#32 0#32) = true ∧
    serves (primsR16 0x18#7 0x01#8) (passing 8 0x00#8 0x19#8) = true ∧ 0x0119#16 = 0x0019#16 ||| 0x0100#16 ∧
    serves (primsW16 0x18#7 0x01#8 0x0119#16) (passing 6 0#8 0#8) = true ∧
    (∀ w ∈ [timer 0, quietInputs], w.rst = false ∧ w.settleDone ≠ some (State.reset.settleWaits + 1)) ∧
    (timer 1).rst = false ∧ (timer 1).settleDone = some (State.reset.settleWaits + 1) := by decide
theorem witness_OnlyASuccessfulGetTemperatureWritesTheStatus :
    next? (exec .getTemperature (running 0x00000021#32 0#1 7#4 0x41#8 0xD0#8 [pass 0#8])) State.stat = some 2#3 ∧
    (running 0x00000021#32 0#1 7#4 0x41#8 0xD0#8 [pass 0#8]).stat = 0#3 := by decide
theorem witness_CommandsKeepAddressLatchesAndParameters :
    next? (exec (.init 0x19#7) (idleWith [])) State.sla = some 0x19#7 := by decide
theorem witness_ResetAbandonsTheCommand :
    (running 0x00000021#32 0#1 7#4 0#8 0#8 [{ quietInputs with rst := true }]).now.rst = true := by decide
theorem witness_LateSettleDoneIsIgnored_count :
    next? (step (running 0x00000027#32 1#1 5#4 0#8 0#8 [pass 0#8])) State.settleWaits = some 1 := by decide
theorem witness_LateSettleDoneIsIgnored_reset :
    (settling [{ quietInputs with rst := true }]).now.rst = true ∧ 2 ≤ (settling []).settleWaits ∧
    next? (runSteps 1 (settling [{ quietInputs with rst := true }])) State.settleWaits = some 2 := by decide
theorem witness_EveryStepCompletesAndKeepsTheInvariant :
    Inv (running 0x00000021#32 0#1 7#4 0#8 0#8 [pass 0#8]) := by decide

end Sys2Proof.Machine.Tests
end

section
/-! PROOFS. The command port (10_state.md R28, R34) and the reset table (R36). -/

namespace Sys2Proof.Machine

/-- The command port is ready exactly in IDLE (R28). -/
@[simp] theorem cmdReady_eq_true_iff (s : State) : cmdReady s = true ↔ s.phase = .idle := beq_iff_eq

/-- Settles O55: the block resets into IDLE, which makes the command port ready; every other line of the reset table is a field
of `State.reset`. -/
theorem resetValues : Obligations.ResetValues := by
  have ready : cmdReady State.reset = true := (cmdReady_eq_true_iff State.reset).mpr rfl
  exact ⟨rfl, rfl, rfl, rfl, rfl, rfl, rfl, ready, rfl, rfl, rfl, rfl, rfl, rfl, rfl⟩

end Sys2Proof.Machine
end

section
/-! PROOFS. The limit word (30_encoding.md R68) and the CONFIG word of ALERT_ENABLE (R70). -/

namespace Sys2Proof.Machine

/-! ### The limit word -/

/-- `W = n' mod 2^16` (R68). -/
theorem encodeLimit_toNat (m : LimitRounding) (x : Word) :
    ((encodeLimit m x).toNat : ℤ) = roundLimit m (limitSixteenths x) % 65536 := by
  rw [encodeLimit, BitVec.toNat_ofInt]
  omega

/-- Read as a signed word, `W` is `n'` wherever `n'` fits in 16 bits, so nothing wraps (R68). -/
theorem encodeLimit_toInt_of_mem_range {m : LimitRounding} {x : Word}
    (hlo : -32768 ≤ roundLimit m (limitSixteenths x)) (hhi : roundLimit m (limitSixteenths x) ≤ 32767) :
    (encodeLimit m x).toInt = roundLimit m (limitSixteenths x) := by
  rw [encodeLimit, BitVec.toInt_ofInt]
  exact Int.bmod_eq_of_le (by omega) (by omega)

/-- The increment under CEIL_QUARTER (R82). -/
theorem roundLimit_ceilQuarter (n : ℤ) : roundLimit .ceilQuarter n = if n % 4 ≠ 0 then n + (4 - n % 4) else n := rfl

/-- CEIL_QUARTER counts whole quarter degrees. -/
theorem roundLimit_ceilQuarter_emod_four (n : ℤ) : roundLimit .ceilQuarter n % 4 = 0 := by
  rw [roundLimit_ceilQuarter]
  split <;> omega

/-- Under CEIL_QUARTER `W[1:0]` is 0 (R68): 4 divides `2^16`, so the wrap keeps the residue of `n'` modulo 4. -/
theorem encodeLimit_ceilQuarter_low_bits (x : Word) : (encodeLimit .ceilQuarter x).extractLsb' 0 2 = 0#2 := by
  apply BitVec.eq_of_toNat_eq
  rw [BitVec.extractLsb'_toNat, Nat.shiftRight_zero, BitVec.toNat_zero]
  have hword := encodeLimit_toNat .ceilQuarter x
  have hquarter := roundLimit_ceilQuarter_emod_four (limitSixteenths x)
  omega

/-- Settles O10: the word and its signed reading from the wrap to 16 bits, the low bits from what each rounding mode does to `n'`;
27.1 °C, `0x001B199A`, is evaluated. -/
theorem limitWordFormat : Obligations.LimitWordFormat := by
  have inc1_value : encodeLimit .inc1 0x001B199A#32 = 0x01B2#16 := by decide
  have inc1_low_bits : (encodeLimit .inc1 0x001B199A#32).extractLsb' 0 2 ≠ 0#2 := by
    rw [inc1_value]
    decide
  exact ⟨encodeLimit_toNat, fun _ _ => encodeLimit_toInt_of_mem_range, inc1_value, inc1_low_bits,
    encodeLimit_ceilQuarter_low_bits⟩

/-! ### The CONFIG word of ALERT_ENABLE -/

/-- An `n`-bit field placed at bit `p` of a half word that has room for it: bit `k` of the word is the field's bit `k - p`. -/
theorem getLsbD_field_shiftLeft {n : Nat} (v : BitVec n) {p : Nat} (hroom : p + n ≤ 16) (k : Nat) :
    (v.setWidth 16 <<< p).getLsbD k = (decide (p ≤ k) && v.getLsbD (k - p)) := by
  rw [BitVec.getLsbD_shiftLeft, BitVec.getLsbD_setWidth]
  by_cases hk : k < 16
  · have hfield : k - p < 16 := by omega
    have hplace : (!decide (k < p)) = decide (p ≤ k) := by rw [← decide_not, decide_eq_decide, Nat.not_lt]
    simp [hk, hfield, hplace]
  · have hpast : v.getLsbD (k - p) = false := BitVec.getLsbD_of_ge v _ (by omega)
    simp [hk, hpast]

/-- The bits ALERT_ENABLE always sets: 0, 3 and 4 (R50, R70). -/
theorem getLsbD_alertConfig_fixed (k : Nat) : (0x0019#16).getLsbD k = (k == 0 || k == 3 || k == 4) := by
  by_cases hk : k < 16
  · interval_cases k <;> rfl
  · have hpast : (0x0019#16).getLsbD k = false := BitVec.getLsbD_of_ge _ _ (by omega)
    simp [hpast, show k ≠ 0 by omega, show k ≠ 3 by omega, show k ≠ 4 by omega]

/-- `mode` stands in bit 2 (R70). -/
theorem getLsbD_alertConfig_mode (mode : BitVec 1) (k : Nat) :
    (mode.setWidth 16 <<< 2).getLsbD k = (k == 2 && mode.getLsbD 0) := by
  rw [getLsbD_field_shiftLeft mode (by decide)]
  rcases lt_trichotomy k 2 with hbelow | rfl | habove
  · simp [show ¬2 ≤ k by omega, show k ≠ 2 by omega]
  · simp
  · have hpast : mode.getLsbD (k - 2) = false := BitVec.getLsbD_of_ge _ _ (by omega)
    simp [hpast, habove.ne']

/-- `hyst` stands in bits 10:9 (R70). -/
theorem getLsbD_alertConfig_hyst (hyst : BitVec 2) (k : Nat) :
    (hyst.setWidth 16 <<< 9).getLsbD k = ((k == 9 && hyst.getLsbD 0) || (k == 10 && hyst.getLsbD 1)) := by
  rw [getLsbD_field_shiftLeft hyst (by decide)]
  have hplace : k < 9 ∨ k = 9 ∨ k = 10 ∨ 10 < k := by omega
  rcases hplace with hbelow | rfl | rfl | habove
  · simp [show ¬9 ≤ k by omega, show k ≠ 9 by omega, show k ≠ 10 by omega]
  · simp
  · simp
  · have hpast : hyst.getLsbD (k - 9) = false := BitVec.getLsbD_of_ge _ _ (by omega)
    simp [hpast, show k ≠ 9 by omega, show k ≠ 10 by omega]

/-- The CONFIG word bit by bit: the fixed bits, `mode` and `hyst`, each in its own place (R70). -/
theorem getLsbD_alertConfig (hyst : BitVec 2) (mode : BitVec 1) (k : Nat) :
    (alertConfig hyst mode).getLsbD k =
      (k == 0 || k == 3 || k == 4 || (k == 2 && mode.getLsbD 0) || (k == 9 && hyst.getLsbD 0) || (k == 10 && hyst.getLsbD 1)) := by
  rw [alertConfig, BitVec.getLsbD_or, BitVec.getLsbD_or, getLsbD_alertConfig_fixed, getLsbD_alertConfig_mode,
    getLsbD_alertConfig_hyst]
  simp only [Bool.or_assoc]

/-- The primitives of `Frame_W16(reg, v)` (R92). -/
theorem frameW16_prims (sla : SlaveAddr) (reg : Byte) (v : Half) :
    (frameW16 sla reg v).map Slot.prim = primsW16 sla reg v := rfl

/-- ALERT_ENABLE's frame writes its word to CONFIG (R92, R114). -/
theorem frameOf_alertEnable (s : State) (hyst : BitVec 2) (mode : BitVec 1) :
    frameOf (.alertEnable hyst mode) s = some (frameW16 s.sla regConfig (alertConfig hyst mode)) := rfl

/-- Settles O42: the frame of ALERT_ENABLE carries `alertConfig`, whose bits are those of its three parts. -/
theorem alertConfigurationWordBits : Obligations.AlertConfigurationWordBits := by
  intro s hyst mode k
  have hframe : (frameOf (.alertEnable hyst mode) s).map (List.map Slot.prim) =
      some (primsW16 s.sla 0x01#8 (alertConfig hyst mode)) := by
    rw [frameOf_alertEnable, Option.map_some, frameW16_prims, regConfig]
  exact ⟨hframe, rfl, getLsbD_alertConfig hyst mode k⟩

end Sys2Proof.Machine
end

section
/-! PROOFS. The temperature decoder (40_codec.md R80, R83) and the totality of the codec commands (R85). -/

namespace Sys2Proof.Machine

/-! ### The temperature decoder -/

/-- Bit 4 of the masked high byte is the sign bit of the 13-bit field (R69, R80). -/
theorem maskedHighByte_getLsbD_four (raw : Half) :
    ((raw.extractLsb' 8 8).extractLsb' 0 5).getLsbD 4 = (raw.extractLsb' 0 13).msb := by
  rw [BitVec.msb_eq_getLsbD_last]
  simp

/-- `hm * 16 + lo / 16`, counted in sixteenths, is the unsigned value of bits 12:0. -/
theorem maskedHighByte_lowByte_toNat (raw : Half) :
    16 * (((raw.extractLsb' 8 8).extractLsb' 0 5).toNat * 16) + (raw.extractLsb' 0 8).toNat =
      (raw.extractLsb' 0 13).toNat := by
  simp only [BitVec.extractLsb'_toNat, Nat.shiftRight_eq_div_pow]
  omega

/-- Clearing bit 4 of the masked high byte (R80) takes its value modulo 16. -/
theorem clearBitFour_toNat (hm : BitVec 5) : (hm &&& 0b01111#5).toNat = hm.toNat % 16 := by
  rw [BitVec.toNat_and]
  exact Nat.and_two_pow_sub_one_eq_mod hm.toNat 4

/-- `DecodeTemp` in closed form: the sign of bits 12:0 read in two's complement, and their magnitude. -/
theorem decodeTemp_eq (raw : Half) :
    decodeTemp raw =
      { sign := BitVec.ofBool (raw.extractLsb' 0 13).msb, mag := (raw.extractLsb' 0 13).abs, flags := statusFlags raw } := by
  have hbytes := maskedHighByte_lowByte_toNat raw
  have hlo : (raw.extractLsb' 0 8).toNat < 2 ^ 8 := BitVec.isLt _
  unfold decodeTemp
  simp only [maskedHighByte_getLsbD_four]
  cases hsign : (raw.extractLsb' 0 13).msb
  case false =>
    rw [if_neg (by simp), hbytes, BitVec.ofNat_toNat, BitVec.setWidth_eq, BitVec.abs_eq, hsign]
    rfl
  case true =>
    have hbit : 2 * (raw.extractLsb' 0 13).toNat ≥ 2 ^ 13 := BitVec.msb_eq_true_iff_two_mul_ge.mp hsign
    have hmag : BitVec.ofNat 13 (16 * 256 -
        (16 * (((raw.extractLsb' 8 8).extractLsb' 0 5 &&& 0b01111#5).toNat * 16) + (raw.extractLsb' 0 8).toNat)) =
        (raw.extractLsb' 0 13).abs := by
      apply BitVec.eq_of_toNat_eq
      rw [BitVec.toNat_ofNat, clearBitFour_toNat, BitVec.toNat_abs, hsign, if_pos rfl]
      omega
    rw [if_pos rfl, hmag]
    rfl

/-- The sign bit is set exactly for a negative reading. -/
theorem decodeTemp_sign_eq_one_iff (raw : Half) : (decodeTemp raw).sign = 1#1 ↔ (raw.extractLsb' 0 13).toInt < 0 := by
  rw [decodeTemp_eq, BitVec.msb_eq_toInt]
  exact (BitVec.ofBool_eq_iff_eq (b' := true)).trans decide_eq_true_iff

/-- The magnitude of a two's-complement word, taken without a sign, is the absolute value of its reading. -/
theorem toNat_abs_eq_abs_toInt {n : Nat} (x : BitVec n) : (x.abs.toNat : ℤ) = |x.toInt| := by
  have hlt : x.toNat < 2 ^ n := x.isLt
  rw [BitVec.toNat_abs, BitVec.toInt_eq_msb_cond]
  cases x.msb
  case false => simp
  case true =>
    rw [if_pos rfl, if_pos rfl, abs_of_neg (by omega)]
    omega

/-- `M` is the absolute value of the reading of bits 12:0, in sixteenths (R83). -/
theorem decodeTemp_mag (raw : Half) : ((decodeTemp raw).mag.toNat : ℤ) = |(raw.extractLsb' 0 13).toInt| := by
  rw [decodeTemp_eq, toNat_abs_eq_abs_toInt]

/-- Sign and magnitude together are the reading of bits 12:0, in sixteenths (R83). -/
theorem decodeTemp_signed (raw : Half) :
    (if (decodeTemp raw).sign = 1#1 then -((decodeTemp raw).mag.toNat : ℤ) else ((decodeTemp raw).mag.toNat : ℤ)) =
      (raw.extractLsb' 0 13).toInt := by
  rw [decodeTemp_mag]
  by_cases hneg : (raw.extractLsb' 0 13).toInt < 0
  · rw [if_pos ((decodeTemp_sign_eq_one_iff raw).mpr hneg), abs_of_neg hneg, neg_neg]
  · rw [if_neg (mt (decodeTemp_sign_eq_one_iff raw).mp hneg), abs_of_nonneg (not_lt.mp hneg)]

/-- Settles O6: both halves hold of the integers counted in sixteenths, and dividing by 16 keeps them. -/
theorem decodedTemperatureIsTheTwosComplementReading : Obligations.DecodedTemperatureIsTheTwosComplementReading := by
  intro raw t reading
  have hsigned : (if t.sign = 1#1 then -(t.mag.toNat : ℚ) else (t.mag.toNat : ℚ)) = ((raw.extractLsb' 0 13).toInt : ℚ) := by
    exact_mod_cast congrArg (Int.cast : ℤ → ℚ) (decodeTemp_signed raw)
  have hmag : (t.mag.toNat : ℚ) = |((raw.extractLsb' 0 13).toInt : ℚ)| := by exact_mod_cast decodeTemp_mag raw
  refine ⟨congrArg (· / 16) hsigned, ?_⟩
  rw [hmag, abs_div, abs_of_pos (by norm_num : (0 : ℚ) < 16)]

/-! ### The codec commands -/

/-- A codec command in an idle block completes at once with a result. -/
theorem exec_codec {i : Instr} {s : State} (hcodec : isCodec i = true) (hidle : s.phase = .idle) :
    ∃ r : Word, exec i s = .next (complete r s) := by
  cases i
  case decodeTemp raw => exact ⟨tempResult (decodeTemp raw), immediate_next_iff.mpr ⟨hidle, rfl⟩⟩
  case decodeStatus raw => exact ⟨zext32 (statusFlags raw), immediate_next_iff.mpr ⟨hidle, rfl⟩⟩
  case encodeLimit => exact ⟨zext32 (encodeLimit s.cfg.limitRounding s.curX), immediate_next_iff.mpr ⟨hidle, rfl⟩⟩
  all_goals cases hcodec

/-- Settles O15: the acceptance clears `ERR` and `ERR_INFO`, and the completion keeps them. -/
theorem codecCommandsNeverFail : Obligations.CodecCommandsNeverFail := by
  intro i s hcodec hidle
  obtain ⟨r, hexec⟩ := exec_codec hcodec ((accept_phase s).trans hidle)
  exact ⟨complete r (accept s), hexec, complete_phase r _, (complete_err r _).trans (accept_err s),
    (complete_errInfo r _).trans (accept_errInfo s)⟩

end Sys2Proof.Machine
end

section
/-! PROOFS. The width check of the raw transactions (60_exceptions.md R142, 41_transactions.md R91). -/

namespace Sys2Proof.Machine

/-! ### The widths of the register addresses -/

/-- The 16-bit registers stand at `0x01..0x07` (R42). -/
theorem regWidth_eq_bits16_iff (reg : Byte) : regWidth reg = some .bits16 ↔ 1 ≤ reg.toNat ∧ reg.toNat ≤ 7 := by
  unfold regWidth
  split
  case isTrue hrange => exact iff_of_true rfl hrange
  case isFalse hrange =>
    refine iff_of_false ?_ hrange
    split <;> simp

/-- The only 8-bit register stands at `0x08` (R42). -/
theorem regWidth_eq_bits8_iff (reg : Byte) : regWidth reg = some .bits8 ↔ reg.toNat = 8 := by
  have hvalue : reg = 0x08#8 ↔ reg.toNat = 8 := BitVec.toNat_inj.symm
  unfold regWidth
  split
  case isTrue hrange => exact iff_of_false (by simp) (by omega)
  case isFalse hrange => simp [hvalue]

/-! ### The refusal -/

/-- An error raised in an idle block with no failure pending changes the three response registers and responds, and that is all:
the writes of `phase` and `pend` are without effect (R143). -/
theorem raiseError_of_idle (k : ErrKind) (info : Byte) {s : State} (hidle : s.phase = .idle) (hpend : s.pend = none) :
    raiseError k info s =
      { s with res := 0#32, err := errCode k, errInfo := info, out := .rsp 0#32 (errCode k) info :: s.out } := by
  calc raiseError k info s
      = { s with
          phase := .idle, pend := none, res := 0#32, err := errCode k, errInfo := info,
          out := .rsp 0#32 (errCode k) info :: s.out } := rfl
    _ = _ := by rw [← hidle, ← hpend]

/-- In an idle block the width check refuses a raw transaction whose register has not its width (R91, R142). -/
theorem rawTransaction_of_width_mismatch {w : RegWidth} {reg : Byte} {s : State} (F : List Slot) (done : State → State)
    (hidle : s.phase = .idle) (hwidth : regWidth reg ≠ some w) :
    rawTransaction w reg F done s = .next (raiseError .invalidRegisterWidth 0#8 s) :=
  if_pos ⟨hidle, hwidth⟩

/-- Settles O22: each of the four commands is a raw transaction of one width, its address has not that width, and the error of the
width check is raised in an idle block. -/
theorem widthMismatchIsRefusedBeforeAnyPrimitive : Obligations.WidthMismatchIsRefusedBeforeAnyPrimitive := by
  intro s reg hidle hpend refused
  have refuse (w : RegWidth) (hwidth : regWidth reg ≠ some w) (F : List Slot) (done : State → State) :
      rawTransaction w reg F done s = .next refused := by
    rw [rawTransaction_of_width_mismatch F done hidle hwidth, raiseError_of_idle _ _ hidle hpend]
    rfl
  have refuse16 (hreg : ¬ (1 ≤ reg.toNat ∧ reg.toNat ≤ 7)) := refuse .bits16 (mt (regWidth_eq_bits16_iff reg).mp hreg)
  have refuse8 (hreg : reg.toNat ≠ 8) := refuse .bits8 (mt (regWidth_eq_bits8_iff reg).mp hreg)
  exact ⟨fun hreg _ => refuse16 hreg _ _, fun hreg => refuse16 hreg _ _, fun hreg _ => refuse8 hreg _ _,
    fun hreg => refuse8 hreg _ _⟩

end Sys2Proof.Machine
end

section
/-! PROOFS. The decoder, the encoder and the opcode map (30_encoding.md R60 to R65). -/

namespace Sys2Proof

/-! ### Words and their fields -/

/-- A command's word is the word with its three fields. -/
theorem encode_eq_iff (i : Instr) (w : Word) :
    encode i = w ↔ i.opcode = opField w ∧ i.aBits = aField w ∧ i.dBits = dField w := by
  constructor
  · rintro rfl
    obtain ⟨hop, ha, hd⟩ := Laws.EncodedFields.fields i
    exact ⟨hop.symm, ha.symm, hd.symm⟩
  · rintro ⟨hop, ha, hd⟩
    rw [encode, hop, ha, hd, commandWord_fields]

/-- A field whose reserved upper bits are 0 is its low part, zero extended. -/
theorem zero_append_low (n m : Nat) {v : BitVec (n + m)} (hv : v.extractLsb' m n = 0#n) : 0#n ++ v.extractLsb' 0 m = v := by
  rw [← hv]
  exact BitVec.extractLsb'_append_extractLsb'

/-- The two operand fields of ALERT_ENABLE stand below its reserved bits (R64). -/
theorem zero_append_alert_fields {d : Half} (hd : d.extractLsb' 3 13 = 0#13) :
    0#13 ++ d.extractLsb' 2 1 ++ d.extractLsb' 0 2 = d := by
  have upper : d.extractLsb' 3 13 ++ d.extractLsb' 2 1 = d.extractLsb' 2 14 :=
    BitVec.extractLsb'_append_extractLsb'_eq_extractLsb' (len₁ := 1) (len₂ := 13) rfl
  rw [← hd, upper]
  exact BitVec.extractLsb'_append_extractLsb' (w := 14) (len := 2)

/-! ### The decoder and the encoder -/

/-- A row gives its command where its reserved bits are 0 (R61). -/
theorem reservedZero_eq_ok_iff {b : Bool} {i j : Instr} : reservedZero b i = .ok j ↔ b = true ∧ i = j := by
  cases b <;> simp [reservedZero]

/-- An accepted word keeps every bit: its reserved bits are 0 and the operands hold the others. -/
theorem wf_and_encode_of_decode {w : Word} {i : Instr} (h : decode w = .ok i) : i.wf = true ∧ encode i = w := by
  rw [encode_eq_iff]
  unfold decode at h
  dsimp only at h
  split at h
  case h_4 hop => -- WRITE16 has no reserved bit
    obtain rfl := Except.ok.inj h
    exact ⟨rfl, hop.symm, rfl, rfl⟩
  case h_11 hop => -- SET_LIMIT, whose selector is checked
    split at h
    case isFalse => cases h
    case isTrue hres =>
      split at h
      case isFalse => cases h
      case isTrue hsel =>
        obtain rfl := Except.ok.inj h
        simp only [Bool.and_eq_true, beq_iff_eq] at hres
        exact ⟨hsel, hop.symm, zero_append_low 6 2 hres.1, hres.2.symm⟩
  case h_23 => cases h -- no row has this opcode
  all_goals
    rename_i hop
    obtain ⟨hres, rfl⟩ := reservedZero_eq_ok_iff.mp h
    simp only [Bool.and_eq_true, beq_iff_eq] at hres
  case h_5 => exact ⟨rfl, hop.symm, rfl, zero_append_low 8 8 hres⟩ -- WRITE8
  case h_8 => exact ⟨rfl, hop.symm, hres.1.symm, zero_append_low 9 7 hres.2⟩ -- INIT
  case h_10 => exact ⟨rfl, hop.symm, hres.1.symm, zero_append_low 14 2 hres.2⟩ -- SET_RESOLUTION
  case h_12 => exact ⟨rfl, hop.symm, hres.1.symm, zero_append_alert_fields hres.2⟩ -- ALERT_ENABLE
  all_goals simp [Instr.wf, Instr.opcode, Instr.aBits, Instr.dBits, hop, hres]

/-- The word of a well-formed command has its row's opcode and 0 in its reserved bits, so the decoder gives the command back. -/
theorem decode_encode {i : Instr} (h : i.wf = true) : decode (encode i) = .ok i := by
  obtain ⟨hop, ha, hd⟩ := Laws.EncodedFields.fields i
  unfold decode
  rw [hop, ha, hd]
  cases i
  case write8 reg b =>
    simp [Instr.opcode, Instr.aBits, Instr.dBits, reservedZero, BitVec.extractLsb'_append_eq_left (w := 8) (w' := 8),
      BitVec.extractLsb'_append_eq_right (w := 8) (w' := 8)]
  case init sla =>
    simp [Instr.opcode, Instr.aBits, Instr.dBits, reservedZero, BitVec.extractLsb'_append_eq_left (w := 9) (w' := 7),
      BitVec.extractLsb'_append_eq_right (w := 9) (w' := 7)]
  case setResolution code =>
    simp [Instr.opcode, Instr.aBits, Instr.dBits, reservedZero, BitVec.extractLsb'_append_eq_left (w := 14) (w' := 2),
      BitVec.extractLsb'_append_eq_right (w := 14) (w' := 2)]
  case setLimit which =>
    have hsel : limitSelectorOk which = true := h
    simp [Instr.opcode, Instr.aBits, Instr.dBits, BitVec.extractLsb'_append_eq_left (w := 6) (w' := 2),
      BitVec.extractLsb'_append_eq_right (w := 6) (w' := 2), hsel]
  case alertEnable hyst mode =>
    have hfields : (0#13 ++ mode ++ hyst).extractLsb' 3 13 = 0#13 ∧ (0#13 ++ mode ++ hyst).extractLsb' 2 1 = mode ∧
        (0#13 ++ mode ++ hyst).extractLsb' 0 2 = hyst := by
      refine ⟨?_, ?_, BitVec.extractLsb'_append_eq_right⟩
      · exact (BitVec.extractLsb'_append_eq_of_le (by decide)).trans BitVec.extractLsb'_append_eq_left
      · exact (BitVec.extractLsb'_append_eq_of_le (by decide)).trans BitVec.extractLsb'_append_eq_right
    simp [Instr.opcode, Instr.aBits, Instr.dBits, reservedZero, hfields]
  all_goals simp [Instr.opcode, Instr.aBits, Instr.dBits, reservedZero]

/-- Settles O1: the reserved bits of an encoded command are 0 and its fields hold the operands. -/
theorem encodedCommandDecodesToItself : Obligations.EncodedCommandDecodesToItself := fun _ => decode_encode

/-- Settles O2: every bit of an accepted word is its opcode, an operand or a reserved 0. -/
theorem decodedWordIsTheEncodingOfItsCommand : Obligations.DecodedWordIsTheEncodingOfItsCommand := fun _ _ =>
  wf_and_encode_of_decode

/-! ### The opcode map -/

/-- A conjunction of words is taken field by field. -/
theorem commandWord_and (d e : Half) (a b op o : Byte) :
    commandWord d a op &&& commandWord e b o = commandWord (d &&& e) (a &&& b) (op &&& o) := by
  have upper : (d ++ a) &&& (e ++ b) = (d &&& e) ++ (a &&& b) := BitVec.and_append
  have whole : commandWord d a op &&& commandWord e b o = ((d ++ a) &&& (e ++ b)) ++ (op &&& o) := BitVec.and_append
  rw [whole, upper, commandWord]

/-- Two words are the same exactly where their fields are. -/
theorem commandWord_inj {d e : Half} {a b op o : Byte} :
    commandWord d a op = commandWord e b o ↔ op = o ∧ a = b ∧ d = e := by
  constructor
  · intro h
    exact ⟨by simpa using congrArg opField h, by simpa using congrArg aField h, by simpa using congrArg dField h⟩
  · rintro ⟨rfl, rfl, rfl⟩
    rfl

/-- Reserved upper bits are 0 exactly where the field is 0 under their mask. -/
theorem and_upper_ones_eq_zero_iff (n m : Nat) (v : BitVec (n + m)) :
    v &&& (BitVec.allOnes n ++ 0#m) = 0#(n + m) ↔ v.extractLsb' m n = 0#n := by
  have hand : v &&& (BitVec.allOnes n ++ 0#m) = v.extractLsb' m n ++ 0#m := by
    conv_lhs => rw [← BitVec.extractLsb'_append_extractLsb' (x := v)]
    rw [BitVec.and_append, BitVec.and_allOnes, BitVec.and_zero]
  have hzero : 0#n ++ 0#m = 0#(n + m) := BitVec.zero_append_zero
  rw [hand, ← hzero, BitVec.append_left_inj]

/-- A row of the opcode map field by field: its opcode and the reserved bits of `A` and `D` (R61, R62). -/
structure RowFields where
  op : Byte
  aReserved : Byte
  dReserved : Half

/-- The row with the given fields. -/
def RowFields.row (f : RowFields) : OpcodeRow where
  matchBits := commandWord 0#16 0#8 f.op
  mask := commandWord f.dReserved f.aReserved 0xFF#8

/-- The opcode map field by field, in its order. -/
def rowFields : List RowFields :=
  [⟨0x01#8, 0xFF#8, 0x0000#16⟩, ⟨0x02#8, 0xFF#8, 0x0000#16⟩, ⟨0x03#8, 0xFF#8, 0xFFFF#16⟩, ⟨0x10#8, 0x00#8, 0x0000#16⟩,
   ⟨0x11#8, 0x00#8, 0xFF00#16⟩, ⟨0x12#8, 0x00#8, 0xFFFF#16⟩, ⟨0x13#8, 0x00#8, 0xFFFF#16⟩, ⟨0x20#8, 0xFF#8, 0xFF80#16⟩,
   ⟨0x21#8, 0xFF#8, 0xFFFF#16⟩, ⟨0x22#8, 0xFF#8, 0xFFFC#16⟩, ⟨0x23#8, 0xFC#8, 0xFFFF#16⟩, ⟨0x24#8, 0xFF#8, 0xFFF8#16⟩,
   ⟨0x25#8, 0xFF#8, 0xFFFF#16⟩, ⟨0x26#8, 0xFF#8, 0xFFFF#16⟩, ⟨0x27#8, 0xFF#8, 0xFFFF#16⟩, ⟨0x28#8, 0xFF#8, 0xFFFF#16⟩,
   ⟨0x29#8, 0xFF#8, 0xFFFF#16⟩, ⟨0x2A#8, 0xFF#8, 0xFFFF#16⟩, ⟨0x2B#8, 0xFF#8, 0xFFFF#16⟩, ⟨0x2C#8, 0xFF#8, 0xFFFF#16⟩,
   ⟨0x2D#8, 0xFF#8, 0xFFFF#16⟩, ⟨0x2E#8, 0xFF#8, 0xFFFF#16⟩]

theorem opcodeRows_eq_map_row : opcodeRows = rowFields.map RowFields.row := by decide

/-- A row matches the words with its opcode whose reserved bits are 0 (R62). -/
theorem and_mask_eq_matchBits_iff (w : Word) (f : RowFields) :
    w &&& f.row.mask = f.row.matchBits ↔
      opField w = f.op ∧ aField w &&& f.aReserved = 0#8 ∧ dField w &&& f.dReserved = 0#16 := by
  have hand : w &&& f.row.mask = commandWord (dField w &&& f.dReserved) (aField w &&& f.aReserved) (opField w) := by
    conv_lhs => rw [← commandWord_fields w]
    rw [RowFields.row, commandWord_and]
    exact congrArg _ BitVec.and_allOnes
  rw [hand]
  exact commandWord_inj

/-- The selector of SET_LIMIT stands in the low bits of `A` (R64). -/
theorem extractLsb'_aField (w : Word) : (aField w).extractLsb' 0 2 = w.extractLsb' 8 2 := by
  ext k hk
  have hlt : k < 8 := by omega
  simp [aField, hlt]

theorem selectsRow_iff (w : Word) (f : RowFields) :
    selectsRow w f.row = true ↔
      opField w = f.op ∧ aField w &&& f.aReserved = 0#8 ∧ dField w &&& f.dReserved = 0#16 ∧
      (f.op = 0x23#8 → limitSelectorOk ((aField w).extractLsb' 0 2) = true) := by
  have hrow : f.row.matchBits = 0x00000023#32 ↔ f.op = 0x23#8 := by
    rw [show (0x00000023#32) = commandWord 0#16 0#8 0x23#8 from rfl, RowFields.row, commandWord_inj]
    simp
  simp only [selectsRow, Bool.and_eq_true, beq_iff_eq, and_mask_eq_matchBits_iff, Bool.or_eq_true, bne_iff_ne, ne_eq,
    hrow, extractLsb'_aField, limitSelectorOk, and_assoc, imp_iff_not_or]

/-- Reserved bits that fill a field are 0 exactly where the field is. -/
theorem and_whole_byte_mask (a : Byte) : a &&& 0xFF#8 = a := BitVec.and_allOnes

theorem and_whole_half_mask (d : Half) : d &&& 0xFFFF#16 = d := BitVec.and_allOnes

theorem and_write8_mask (d : Half) : d &&& 0xFF00#16 = 0#16 ↔ d.extractLsb' 8 8 = 0#8 := and_upper_ones_eq_zero_iff 8 8 d

theorem and_init_mask (d : Half) : d &&& 0xFF80#16 = 0#16 ↔ d.extractLsb' 7 9 = 0#9 := and_upper_ones_eq_zero_iff 9 7 d

theorem and_setResolution_mask (d : Half) : d &&& 0xFFFC#16 = 0#16 ↔ d.extractLsb' 2 14 = 0#14 :=
  and_upper_ones_eq_zero_iff 14 2 d

theorem and_alertEnable_mask (d : Half) : d &&& 0xFFF8#16 = 0#16 ↔ d.extractLsb' 3 13 = 0#13 :=
  and_upper_ones_eq_zero_iff 13 3 d

theorem and_setLimit_mask (a : Byte) : a &&& 0xFC#8 = 0#8 ↔ a.extractLsb' 2 6 = 0#6 := and_upper_ones_eq_zero_iff 6 2 a

/-- The decoder accepts exactly the words that select a row: opcode by opcode, it checks the reserved bits that the row's mask
covers, and SET_LIMIT's selector. -/
theorem decode_accepts_iff (w : Word) : (∃ i, decode w = .ok i) ↔ ∃ f ∈ rowFields, selectsRow w f.row = true := by
  have accepts (b : Bool) (j : Instr) : (∃ i, reservedZero b j = .ok i) ↔ b = true := by
    simp [reservedZero_eq_ok_iff]
  simp only [selectsRow_iff, rowFields, List.exists_mem_cons_iff, List.not_mem_nil, false_and, exists_false, or_false]
  unfold decode
  dsimp only
  split
  case h_11 hop => -- SET_LIMIT
    simp only [hop, and_setLimit_mask, and_whole_half_mask]
    split_ifs <;> simp_all
  case h_23 => simp_all -- no row has this opcode
  all_goals
    rename_i hop
    simp [hop, accepts, and_whole_byte_mask, and_whole_half_mask, and_write8_mask, and_init_mask, and_setResolution_mask,
      and_alertEnable_mask]

/-- Settles O3: the decoder against the rows of the map; and no word has two opcodes. -/
theorem wordDecodesExactlyWhenItSelectsARow : Obligations.WordDecodesExactlyWhenItSelectsARow := by
  have distinct : (rowFields.map RowFields.op).Nodup := by decide
  have opcode_of_row {w : Word} {k : Nat} {r : OpcodeRow} (hk : opcodeRows[k]? = some r) (hr : w &&& r.mask = r.matchBits) :
      (rowFields.map RowFields.op)[k]? = some (opField w) := by
    rw [opcodeRows_eq_map_row, List.getElem?_map, Option.map_eq_some_iff] at hk
    obtain ⟨f, hf, rfl⟩ := hk
    rw [List.getElem?_map, hf, ((and_mask_eq_matchBits_iff w f).mp hr).1, Option.map_some]
  refine ⟨fun w => ?_, fun w j k r q hj hk hr hq => ?_⟩
  · rw [decode_accepts_iff, opcodeRows_eq_map_row]
    simp
  · have hsame := (opcode_of_row hj hr).trans (opcode_of_row hk hq).symm
    have hlt : j < (rowFields.map RowFields.op).length := (List.getElem?_eq_some_iff.mp (opcode_of_row hj hr)).1
    exact (List.getElem?_inj hlt distinct).mp hsame

/-- A word that selects no row is rejected. -/
theorem decode_error_of_no_row {w : Word} (h : ∀ r ∈ opcodeRows, selectsRow w r = false) : ∃ e, decode w = .error e := by
  cases hw : decode w with
  | error e => exact ⟨e, rfl⟩
  | ok i =>
    obtain ⟨r, hr, hsel⟩ := (wordDecodesExactlyWhenItSelectsARow.1 w).mp ⟨i, hw⟩
    simp [h r hr] at hsel

/-- Settles O4: each legal word is the encoding of its command; the illegal ones fail at the selector of SET_LIMIT, at bit 7 of
INIT's `D`, and at the opcode. -/
theorem writtenOutWordsDecode : Obligations.WrittenOutWordsDecode := by
  have limitSelector : decode 0x00000323#32 = .error .limitSelector := by decide
  have reservedBit : decode 0x00800020#32 = .error .reservedBits := by decide
  have unknownOpcode : decode 0x0000002F#32 = .error (.unknownOpcode 0x2F#8) := by decide
  exact ⟨decode_encode (i := .decodeTemp 0x9C90#16) rfl, decode_encode (i := .write16 0x02#8 0x01C0#16) rfl,
    decode_encode (i := .write8 0x08#8 0xFF#8) rfl, decode_encode (i := .init 0x19#7) rfl,
    decode_encode (i := .setLimit 2#2) rfl, decode_encode (i := .alertEnable 3#2 1#1) rfl,
    decode_encode (i := .getDeviceId) rfl, limitSelector, reservedBit, unknownOpcode⟩

end Sys2Proof
end

section
/-! PROOFS. The codec commands and the results of the commands that complete at once (40_codec.md R80 to R84, 42_operations.md R110 to
R117, 30_encoding.md R66 to R69). -/

namespace Sys2Proof.Machine

/-! ### Completion of an idle block -/

/-- A command that completes in an idle block writes `RES` and responds, and that is all. -/
theorem complete_of_idle (r : Word) {s : State} (hidle : s.phase = .idle) :
    complete r s = { s with res := r, out := .rsp r s.err s.errInfo :: s.out } := by
  calc complete r s = { s with phase := .idle, res := r, out := .rsp r s.err s.errInfo :: s.out } := rfl
    _ = _ := by rw [← hidle]

/-- A command that issues no primitive does all it does in IDLE. -/
theorem immediate_of_idle {f : State → State} {s : State} (hidle : s.phase = .idle) : immediate f s = .next (f s) :=
  immediate_next_iff.mpr ⟨hidle, rfl⟩

/-! ### Flags and results -/

/-- The three status flags are bits 15:13 of the reading (R81). -/
theorem statusFlags_eq (raw : Half) : statusFlags raw = raw.extractLsb' 13 3 := by
  have upper : raw.extractLsb' 15 1 ++ raw.extractLsb' 14 1 = raw.extractLsb' 14 2 :=
    BitVec.extractLsb'_append_extractLsb'_eq_extractLsb' (len₁ := 1) (len₂ := 1) rfl
  rw [statusFlags, upper]
  exact BitVec.extractLsb'_append_extractLsb'_eq_extractLsb' (len₁ := 1) (len₂ := 2) rfl

/-- The fields of a word extended into `RES` are its own, and the bits above are 0 (R11, R66). -/
theorem extractLsb'_zext32 {n : Nat} (v : BitVec n) (p m : Nat) (h : p + m ≤ 32) :
    (zext32 v).extractLsb' p m = v.extractLsb' p m := by
  ext k hk
  have hlt : p + k < 32 := by omega
  simp [zext32, hlt]

/-- A word extended into `RES` leaves 0 above it (R11). -/
theorem extractLsb'_zext32_above {n : Nat} (v : BitVec n) (p m : Nat) (h : n ≤ p) : (zext32 v).extractLsb' p m = 0#m := by
  ext k hk
  have hpast : v.getLsbD (p + k) = false := BitVec.getLsbD_of_ge _ _ (by omega)
  simp [zext32, hpast]

/-- The places of sign, magnitude and flags in the result (R66). -/
theorem tempResult_fields (t : TempReading) :
    (tempResult t).extractLsb' 0 13 = t.mag ∧ (tempResult t).extractLsb' 13 1 = t.sign ∧
    (tempResult t).extractLsb' 14 2 = 0#2 ∧ (tempResult t).extractLsb' 16 3 = t.flags ∧
    (tempResult t).extractLsb' 19 13 = 0#13 := by
  have below {n m : Nat} (x : BitVec n) (y : BitVec m) (p l : Nat) (h : m ≤ p) :
      (x ++ y).extractLsb' p l = x.extractLsb' (p - m) l := BitVec.extractLsb'_append_eq_of_le h
  refine ⟨?_, ?_, ?_, ?_, extractLsb'_zext32_above _ _ _ (by decide)⟩
  all_goals rw [tempResult, extractLsb'_zext32 _ _ _ (by decide)]
  · exact BitVec.extractLsb'_append_eq_right
  · exact (below _ _ _ _ (by decide)).trans BitVec.extractLsb'_append_eq_right
  · exact (below _ _ _ _ (by decide)).trans ((below _ _ _ _ (by decide)).trans BitVec.extractLsb'_append_eq_right)
  · exact (below _ _ _ _ (by decide)).trans ((below _ _ _ _ (by decide)).trans BitVec.extractLsb'_append_eq_left)

/-! ### DECODE_TEMP and DECODE_STATUS -/

/-- Bit 12 is the sign bit of the 13-bit reading (R69). -/
theorem reading_msb (raw : Half) : (raw.extractLsb' 0 13).msb = raw.getLsbD 12 := by
  simp [BitVec.msb_eq_getLsbD_last]

/-- The 13-bit reading, by its sign bit and the 12 bits below. -/
theorem reading_toNat (raw : Half) :
    (raw.extractLsb' 0 13).toNat = (if raw.getLsbD 12 then 4096 else 0) + (raw.extractLsb' 0 12).toNat := by
  have hmsb := BitVec.msb_eq_decide (raw.extractLsb' 0 13)
  rw [reading_msb] at hmsb
  rw [hmsb]
  simp only [BitVec.extractLsb'_toNat, Nat.shiftRight_zero, decide_eq_true_eq]
  split <;> omega

/-- The magnitude by the closed form of R80. -/
theorem decodeTemp_mag_toNat (raw : Half) :
    (decodeTemp raw).mag.toNat =
      if raw.getLsbD 12 then 4096 - (raw.extractLsb' 0 12).toNat else (raw.extractLsb' 0 12).toNat := by
  rw [decodeTemp_eq]
  simp only [BitVec.toNat_abs, reading_msb, reading_toNat]
  split <;> omega

/-- The sign is bit 12 (R69). -/
theorem decodeTemp_sign (raw : Half) : (decodeTemp raw).sign = raw.extractLsb' 12 1 := by
  rw [decodeTemp_eq, reading_msb]
  ext k hk
  obtain rfl : k = 0 := by omega
  simp

theorem decodeTemp_flags (raw : Half) : (decodeTemp raw).flags = raw.extractLsb' 13 3 := by
  rw [decodeTemp_eq]
  exact statusFlags_eq raw

/-- The result word of a decoded reading: sign, magnitude and flags in their places, every other bit 0 (R66, R80). -/
theorem tempResult_decodeTemp_fields (raw : Half) :
    ((tempResult (decodeTemp raw)).extractLsb' 0 13).toNat =
      (if raw.getLsbD 12 then 4096 - (raw.extractLsb' 0 12).toNat else (raw.extractLsb' 0 12).toNat) ∧
    (tempResult (decodeTemp raw)).extractLsb' 13 1 = raw.extractLsb' 12 1 ∧
    (tempResult (decodeTemp raw)).extractLsb' 14 2 = 0#2 ∧
    (tempResult (decodeTemp raw)).extractLsb' 16 3 = raw.extractLsb' 13 3 ∧
    (tempResult (decodeTemp raw)).extractLsb' 19 13 = 0#13 := by
  obtain ⟨hmag, hsign, hgap, hflags, habove⟩ := tempResult_fields (decodeTemp raw)
  exact ⟨by rw [hmag, decodeTemp_mag_toNat], hsign.trans (decodeTemp_sign raw), hgap, hflags.trans (decodeTemp_flags raw), habove⟩

/-- Settles O5: the command completes at once with the result word of the decoded reading. -/
theorem decodeTempReturnsSignMagnitudeAndFlags : Obligations.DecodeTempReturnsSignMagnitudeAndFlags := by
  intro s raw hidle
  refine ⟨tempResult (decodeTemp raw), ?_, tempResult_decodeTemp_fields raw⟩
  rw [← complete_of_idle _ hidle]
  exact immediate_of_idle hidle

/-- Settles O7: the closed form of the magnitude by the sign bit; 4096 is the value of no low part but 0. -/
theorem decodedMagnitudeRange : Obligations.DecodedMagnitudeRange := by
  intro raw t
  have hlow : (raw.extractLsb' 0 12).toNat < 4096 := BitVec.isLt _
  have hsign : t.sign = raw.extractLsb' 12 1 := decodeTemp_sign raw
  have hmag : t.mag.toNat = _ := decodeTemp_mag_toNat raw
  have htop : t.mag.getLsbD 12 = decide (4096 ≤ t.mag.toNat) := BitVec.msb_eq_getLsbD_last t.mag ▸ BitVec.msb_eq_decide t.mag
  have hread : raw.extractLsb' 0 13 = 0x1000#13 ↔ (raw.extractLsb' 0 13).toNat = 4096 := BitVec.toNat_inj.symm
  have hbit : raw.extractLsb' 12 1 = BitVec.ofBool (raw.getLsbD 12) := by rw [← decodeTemp_sign, decodeTemp_eq, reading_msb]
  rw [reading_toNat] at hread
  rw [htop, decide_eq_true_iff, hread, hsign, hbit]
  refine ⟨rfl, ?_⟩
  cases hs : raw.getLsbD 12
  case false =>
    rw [hs, if_neg Bool.false_ne_true] at hmag
    rw [if_neg Bool.false_ne_true]
    exact ⟨fun _ => by omega, fun h => absurd h (by decide), by omega, by omega⟩
  case true =>
    rw [hs, if_pos rfl] at hmag
    rw [if_pos rfl]
    exact ⟨fun h => absurd h (by decide), fun _ => by omega, by omega, by omega⟩

/-- Settles O8: the flags of R81 are bits 15:13, extended. -/
theorem decodeStatusReturnsTheThreeFlags : Obligations.DecodeStatusReturnsTheThreeFlags := by
  intro s raw hidle
  have hbit (k : Nat) (hk : k < 3) : (zext32 (statusFlags raw)).getLsbD k = raw.getLsbD (13 + k) := by
    have hlt : k < 32 := by omega
    simp [statusFlags_eq, zext32, hk, hlt]
  refine ⟨zext32 (statusFlags raw), ?_, hbit 0 (by decide), hbit 1 (by decide), hbit 2 (by decide),
    extractLsb'_zext32_above _ _ _ (by decide)⟩
  rw [← complete_of_idle _ hidle]
  exact immediate_of_idle hidle

/-! ### ENCODE_LIMIT -/

/-- `n` truncates toward zero, sign and magnitude apart (R82). -/
theorem limitSixteenths_eq_sign_mul (x : Word) :
    limitSixteenths x = x.toInt.sign * ((x.toInt.natAbs / 4096 : ℕ) : ℤ) := by
  rw [limitSixteenths, show (65536 : ℤ) = 16 * 4096 by norm_num, Int.mul_tdiv_mul_of_pos _ _ (by norm_num)]
  cases x.toInt with
  | ofNat k =>
    cases k with
    | zero => rfl
    | succ k => exact (one_mul _).symm
  | negSucc k => exact (neg_one_mul _).symm

/-- The increment of each mode, where the low two bits of the count are not 0 (R82). -/
theorem roundLimit_eq (m : LimitRounding) (n : ℤ) :
    roundLimit m n = if n % 4 = 0 then n else if m = .inc1 then n + 1 else n + (4 - n % 4) := by
  cases m <;> simp [roundLimit]

/-- Settles O9: the word of `CUR_X` in the low half of `RES`. -/
theorem encodeLimitReturnsTheLimitWord : Obligations.EncodeLimitReturnsTheLimitWord := by
  intro s hidle q n n'
  have hround : roundLimit s.cfg.limitRounding (limitSixteenths s.curX) = n' := by
    rw [limitSixteenths_eq_sign_mul, roundLimit_eq]
  refine ⟨zext32 (encodeLimit s.cfg.limitRounding s.curX), ?_, ?_, extractLsb'_zext32_above _ _ _ (by decide)⟩
  · rw [← complete_of_idle _ hidle]
    exact immediate_of_idle hidle
  · rw [extractLsb'_zext32 _ _ _ (by decide), BitVec.extractLsb'_eq_self, encodeLimit_toNat, hround]

/-- Settles O11: by whether the count is a quarter degree. -/
theorem limitRoundingStaysNearTheTruncatedCount : Obligations.LimitRoundingStaysNearTheTruncatedCount := by
  intro n
  rw [roundLimit_eq, roundLimit_eq]
  by_cases h : n % 4 = 0
  · rw [if_pos h, if_pos h]
    omega
  · rw [if_neg h, if_neg h, if_pos rfl, if_neg (by simp)]
    omega

/-- The rounding does not decrease with the count. -/
theorem roundLimit_mono (m : LimitRounding) {a b : ℤ} (h : a ≤ b) : roundLimit m a ≤ roundLimit m b := by
  cases m <;> simp only [roundLimit] <;> split <;> split <;> omega

/-- The truncated count does not decrease with the operand. -/
theorem limitSixteenths_mono {x y : Word} (h : x.toInt ≤ y.toInt) : limitSixteenths x ≤ limitSixteenths y :=
  Int.tdiv_le_tdiv (by norm_num) (by omega)

/-- Settles O12: neither word wraps, and truncation and rounding are monotone. -/
theorem encodeLimitIsMonotoneWithoutWrap : Obligations.EncodeLimitIsMonotoneWithoutWrap := by
  intro m x y hxy hlo hhi
  have hround := roundLimit_mono m (limitSixteenths_mono hxy)
  rw [encodeLimit_toInt_of_mem_range hlo (hround.trans hhi), encodeLimit_toInt_of_mem_range (hlo.trans hround) hhi]
  exact hround

/-- A quarter-degree operand in range is encoded exactly (R84). -/
theorem encodeLimit_quarter {m : LimitRounding} {x : Word} (hquarter : x.toInt % 16384 = 0)
    (hlo : -32768 * 4096 ≤ x.toInt) (hhi : x.toInt ≤ 32767 * 4096) : (encodeLimit m x).toInt * 4096 = x.toInt := by
  obtain ⟨k, hk⟩ := Int.dvd_of_emod_eq_zero hquarter
  have hcount : limitSixteenths x = 4 * k := by
    rw [limitSixteenths, hk, show 16 * (16384 * k) = 4 * k * 65536 by ring]
    exact Int.mul_tdiv_cancel _ (by norm_num)
  have hround : roundLimit m (limitSixteenths x) = 4 * k := by
    rw [hcount, roundLimit_eq, if_pos (by omega)]
  rw [encodeLimit_toInt_of_mem_range (by omega) (by omega), hround]
  omega

/-- Settles O13: the decoded word is the operand itself. -/
theorem quarterDegreeLimitsEncodeExactly : Obligations.QuarterDegreeLimitsEncodeExactly := by
  intro m x hquarter hlo hhi
  have hexact := encodeLimit_quarter (m := m) hquarter hlo hhi
  exact ⟨hexact, by rw [hexact, BitVec.ofInt_toInt]⟩

/-- Under CEIL_QUARTER the word decodes to a quarter degree. -/
theorem encodeLimit_ceilQuarter_toInt_emod_four (x : Word) : (encodeLimit .ceilQuarter x).toInt % 4 = 0 := by
  have hword := encodeLimit_toNat .ceilQuarter x
  have hquarter := roundLimit_ceilQuarter_emod_four (limitSixteenths x)
  rw [BitVec.toInt_eq_toNat_cond]
  split <;> omega

/-- A decoded limit word is an operand: nothing wraps on the way. -/
theorem toInt_decoded_limit (w : Half) : (BitVec.ofInt 32 (w.toInt * 4096)).toInt = w.toInt * 4096 := by
  have hlo : -32768 ≤ w.toInt := BitVec.le_toInt w
  have hhi : w.toInt < 32768 := BitVec.toInt_lt
  rw [BitVec.toInt_ofInt]
  exact Int.bmod_eq_of_le (by omega) (by omega)

/-- Settles O14: a word of CEIL_QUARTER decodes to a quarter degree in range, which is encoded exactly; under INC1 the vector of 27.1 °C
moves again. -/
theorem ceilQuarterIsIdempotentAndInc1IsNot : Obligations.CeilQuarterIsIdempotentAndInc1IsNot := by
  refine ⟨fun x => ?_, by decide, by decide⟩
  have hdecoded := toInt_decoded_limit (encodeLimit .ceilQuarter x)
  have hquarter := encodeLimit_ceilQuarter_toInt_emod_four x
  have hlo : -32768 ≤ (encodeLimit .ceilQuarter x).toInt := BitVec.le_toInt _
  have hhi : (encodeLimit .ceilQuarter x).toInt < 32768 := BitVec.toInt_lt
  apply BitVec.eq_of_toInt_eq
  have hexact := encodeLimit_quarter (m := .ceilQuarter) (x := BitVec.ofInt 32 ((encodeLimit .ceilQuarter x).toInt * 4096))
    (by omega) (by omega) (by omega)
  omega

/-! ### The other commands that complete at once -/

/-- Settles O39: the completion of INIT keeps the address it wrote. -/
theorem initSetsTheSlaveAddress : Obligations.InitSetsTheSlaveAddress := by
  intro s a hidle
  have hcomplete := complete_of_idle 0#32 (s := { s with sla := a }) hidle
  exact (immediate_of_idle (f := fun t => complete 0#32 { t with sla := a }) hidle).trans (congrArg _ hcomplete)

/-- Settles O40: the line's one bit, extended. -/
theorem getAlertPinSamplesTheLine : Obligations.GetAlertPinSamplesTheLine := by
  intro s hidle r
  have hline : zext32 (BitVec.ofBool s.now.alertIn) = r := by
    show _ = if s.now.alertIn then 1#32 else 0#32
    cases s.now.alertIn <;> rfl
  rw [← complete_of_idle _ hidle, ← hline]
  exact immediate_of_idle hidle

/-- Settles O41: the valid bit stands above the three flags. -/
theorem getAlertStatusReturnsTheCache : Obligations.GetAlertStatusReturnsTheCache := by
  intro s hidle
  refine ⟨zext32 (s.statV ++ s.stat), ?_, ?_, ?_, extractLsb'_zext32_above _ _ _ (by decide)⟩
  · rw [← complete_of_idle _ hidle]
    exact immediate_of_idle hidle
  · rw [extractLsb'_zext32 _ _ _ (by decide)]
    exact BitVec.extractLsb'_append_eq_right
  · rw [extractLsb'_zext32 _ _ _ (by decide)]
    exact BitVec.extractLsb'_append_eq_left

end Sys2Proof.Machine
end

section
/-! PROOFS. What `exec` does at one step, said once for all commands: in IDLE, in RUN by BUS's answer, in ABORT and in SETTLE; and the
inversion `ExecStep`, from which the statements over all commands follow. -/

namespace Sys2Proof.Machine

/-! ### What a command does when its frame has completed -/

/-- What follows the last place of a command's frame: the completion with its result, or the next part of an RMW command (R121). -/
def afterFrame (i : Instr) (u : State) : State :=
  match i with
  | .write16 _ v => complete (zext32 v) u
  | .write8 _ b => complete (zext32 b) u
  | .read16 _ | .getManufacturerId | .getDeviceId => complete (zext32 (rxWord u)) u
  | .read8 _ => complete (zext32 u.rxl) u
  | .getTemperature => complete (tempResult (decodeTemp (rxWord u))) (refreshStatus (rxWord u) u)
  | .setResolution code => complete (zext32 (resolutionByte code)) u
  | .setLimit _ => complete (zext32 (encodeLimit u.cfg.limitRounding u.curX)) u
  | .alertEnable hyst mode => complete (zext32 (alertConfig hyst mode)) u
  | .sleep => afterRmw setSleep startSettle u
  | .wakeup => afterRmw clearSleep startSettle u
  | .tcritLock => afterRmw setTcritLock respond u
  | .tcritUnlock => afterRmw clearTcritLock respond u
  | .windowLock => afterRmw setWindowLock respond u
  | .windowUnlock => afterRmw clearWindowLock respond u
  | .decodeTemp _ | .decodeStatus _ | .encodeLimit | .init _ | .getAlertPin | .getAlertStatus => u
where
  /-- After the read the write starts; after the write `RES` is the word written, and `done` follows (R121). -/
  afterRmw (f : Half → Half) (done : State → State) (u : State) : State :=
    if u.tn = 0#1 then startWrite u else done { u with res := zext32 (f u.hold) }

/-- The read of an RMW command has completed. -/
theorem afterRmw_of_read {f : Half → Half} {done : State → State} {u : State} (h : u.tn = 0#1) :
    afterFrame.afterRmw f done u = startWrite u := if_pos h

/-- The write of an RMW command has completed. -/
theorem afterRmw_of_write {f : Half → Half} {done : State → State} {u : State} (h : u.tn ≠ 0#1) :
    afterFrame.afterRmw f done u = done { u with res := zext32 (f u.hold) } := if_neg h

/-- After its frame a command has completed, perhaps with a new status, or has started its write or its settle wait. -/
theorem afterFrame_cases {i : Instr} {s u : State} {F : List Slot} (hF : frameOf i s = some F) (htn : u.tn = s.tn) :
    (∃ r, afterFrame i u = complete r u) ∨
    (i = .getTemperature ∧ ∃ r, afterFrame i u = complete r (refreshStatus (rxWord u) u)) ∨
    (isRmw i = true ∧ s.tn = 0#1 ∧ afterFrame i u = startWrite u) ∨
    (isPower i = true ∧ s.tn ≠ 0#1 ∧ ∃ r, afterFrame i u = startSettle { u with res := r }) := by
  cases i
  case decodeTemp | decodeStatus | encodeLimit | init | getAlertPin | getAlertStatus => simp [frameOf] at hF
  case getTemperature => exact .inr (.inl ⟨rfl, _, rfl⟩)
  case sleep | wakeup =>
    by_cases h : s.tn = 0#1
    · exact .inr (.inr (.inl ⟨rfl, h, afterRmw_of_read (htn.trans h)⟩))
    · exact .inr (.inr (.inr ⟨rfl, h, _, afterRmw_of_write (htn ▸ h)⟩))
  case tcritLock | tcritUnlock | windowLock | windowUnlock =>
    by_cases h : s.tn = 0#1
    · exact .inr (.inr (.inl ⟨rfl, h, afterRmw_of_read (htn.trans h)⟩))
    · exact .inl ⟨_, afterRmw_of_write (htn ▸ h)⟩
  all_goals exact .inl ⟨_, rfl⟩

/-! ### The frame of a command -/

/-- The frame depends on the address, the transaction, the value held and the operand (R92, R113, R121). -/
theorem frameOf_congr {s t : State} (i : Instr) (hsla : t.sla = s.sla) (htn : t.tn = s.tn) (hhold : t.hold = s.hold)
    (hcfg : t.cfg = s.cfg) (hx : t.curX = s.curX) : frameOf i t = frameOf i s := by
  cases i <;> simp only [frameOf, frameOf.rmwFrame, hsla, htn, hhold, hcfg, hx]

/-- BUS has let the primitive at the place `c` pass: the byte is stored, the exchange emitted, and `FI` moves on (R93). -/
def passPlace (c : Slot) (d : BusDraw) (s : State) : State :=
  { storeRx c.dest d.data (emit (.bus c.prim (answerTo c.prim d)) s) with fi := s.fi + 1#4 }

theorem passPlace_eq (c : Slot) (d : BusDraw) (s : State) :
    passPlace c d s = { s with
      fi := s.fi + 1#4,
      rxh := if c.dest = some .rxh then d.data else s.rxh,
      rxl := if c.dest = some .rxl then d.data else s.rxl,
      out := .bus c.prim (answerTo c.prim d) :: s.out } := by
  rw [passPlace, storeRx_eq]
  rfl

@[simp] theorem passPlace_sla (c : Slot) (d : BusDraw) (s : State) : (passPlace c d s).sla = s.sla := by rw [passPlace_eq]
@[simp] theorem passPlace_stat (c : Slot) (d : BusDraw) (s : State) : (passPlace c d s).stat = s.stat := by rw [passPlace_eq]
@[simp] theorem passPlace_statV (c : Slot) (d : BusDraw) (s : State) : (passPlace c d s).statV = s.statV := by rw [passPlace_eq]
@[simp] theorem passPlace_res (c : Slot) (d : BusDraw) (s : State) : (passPlace c d s).res = s.res := by rw [passPlace_eq]
@[simp] theorem passPlace_err (c : Slot) (d : BusDraw) (s : State) : (passPlace c d s).err = s.err := by rw [passPlace_eq]
@[simp] theorem passPlace_errInfo (c : Slot) (d : BusDraw) (s : State) : (passPlace c d s).errInfo = s.errInfo := by rw [passPlace_eq]
@[simp] theorem passPlace_phase (c : Slot) (d : BusDraw) (s : State) : (passPlace c d s).phase = s.phase := by rw [passPlace_eq]
@[simp] theorem passPlace_curCw (c : Slot) (d : BusDraw) (s : State) : (passPlace c d s).curCw = s.curCw := by rw [passPlace_eq]
@[simp] theorem passPlace_curX (c : Slot) (d : BusDraw) (s : State) : (passPlace c d s).curX = s.curX := by rw [passPlace_eq]
@[simp] theorem passPlace_tn (c : Slot) (d : BusDraw) (s : State) : (passPlace c d s).tn = s.tn := by rw [passPlace_eq]
@[simp] theorem passPlace_hold (c : Slot) (d : BusDraw) (s : State) : (passPlace c d s).hold = s.hold := by rw [passPlace_eq]
@[simp] theorem passPlace_pend (c : Slot) (d : BusDraw) (s : State) : (passPlace c d s).pend = s.pend := by rw [passPlace_eq]
@[simp] theorem passPlace_settleWaits (c : Slot) (d : BusDraw) (s : State) : (passPlace c d s).settleWaits = s.settleWaits := by rw [passPlace_eq]
@[simp] theorem passPlace_cfg (c : Slot) (d : BusDraw) (s : State) : (passPlace c d s).cfg = s.cfg := by rw [passPlace_eq]
@[simp] theorem passPlace_inputs (c : Slot) (d : BusDraw) (s : State) : (passPlace c d s).inputs = s.inputs := by rw [passPlace_eq]
@[simp] theorem passPlace_now (c : Slot) (d : BusDraw) (s : State) : (passPlace c d s).now = s.now := by simp [State.now]
@[simp] theorem passPlace_fi (c : Slot) (d : BusDraw) (s : State) : (passPlace c d s).fi = s.fi + 1#4 := rfl
@[simp] theorem passPlace_out (c : Slot) (d : BusDraw) (s : State) :
    (passPlace c d s).out = .bus c.prim (answerTo c.prim d) :: s.out := by rw [passPlace_eq]

/-- The frame goes on as the same frame. -/
@[simp] theorem frameOf_passPlace (i : Instr) (c : Slot) (d : BusDraw) (s : State) : frameOf i (passPlace c d s) = frameOf i s :=
  frameOf_congr i (by simp) (by simp) (by simp) (by simp) (by simp)

/-- The block goes to ABORT with the failure `f` pending (R144). -/
def enterAbort (f : BusFail) (s : State) : State := { s with phase := .abort, pend := some f }

@[simp] theorem enterAbort_sla (f : BusFail) (s : State) : (enterAbort f s).sla = s.sla := rfl
@[simp] theorem enterAbort_stat (f : BusFail) (s : State) : (enterAbort f s).stat = s.stat := rfl
@[simp] theorem enterAbort_statV (f : BusFail) (s : State) : (enterAbort f s).statV = s.statV := rfl
@[simp] theorem enterAbort_res (f : BusFail) (s : State) : (enterAbort f s).res = s.res := rfl
@[simp] theorem enterAbort_err (f : BusFail) (s : State) : (enterAbort f s).err = s.err := rfl
@[simp] theorem enterAbort_errInfo (f : BusFail) (s : State) : (enterAbort f s).errInfo = s.errInfo := rfl
@[simp] theorem enterAbort_curCw (f : BusFail) (s : State) : (enterAbort f s).curCw = s.curCw := rfl
@[simp] theorem enterAbort_curX (f : BusFail) (s : State) : (enterAbort f s).curX = s.curX := rfl
@[simp] theorem enterAbort_fi (f : BusFail) (s : State) : (enterAbort f s).fi = s.fi := rfl
@[simp] theorem enterAbort_tn (f : BusFail) (s : State) : (enterAbort f s).tn = s.tn := rfl
@[simp] theorem enterAbort_hold (f : BusFail) (s : State) : (enterAbort f s).hold = s.hold := rfl
@[simp] theorem enterAbort_settleWaits (f : BusFail) (s : State) : (enterAbort f s).settleWaits = s.settleWaits := rfl
@[simp] theorem enterAbort_cfg (f : BusFail) (s : State) : (enterAbort f s).cfg = s.cfg := rfl
@[simp] theorem enterAbort_inputs (f : BusFail) (s : State) : (enterAbort f s).inputs = s.inputs := rfl
@[simp] theorem enterAbort_out (f : BusFail) (s : State) : (enterAbort f s).out = s.out := rfl
@[simp] theorem enterAbort_phase (f : BusFail) (s : State) : (enterAbort f s).phase = .abort := rfl
@[simp] theorem enterAbort_pend (f : BusFail) (s : State) : (enterAbort f s).pend = some f := rfl

/-- The abort is of the same frame. -/
@[simp] theorem frameOf_enterAbort (i : Instr) (f : BusFail) (s : State) : frameOf i (enterAbort f s) = frameOf i s :=
  frameOf_congr i rfl rfl rfl rfl rfl

@[simp] theorem frameOf_emit (i : Instr) (e : Event) (s : State) : frameOf i (emit e s) = frameOf i s :=
  frameOf_congr i rfl rfl rfl rfl rfl

@[simp] theorem frameOf_startFrame (i : Instr) (s : State) : frameOf i (startFrame s) = frameOf i s :=
  frameOf_congr i rfl rfl rfl rfl rfl

/-- The failure a refusing answer stands for (R93). -/
def failOf (a : BusAnswer) : BusFail := if a = .nack then .nack else .timeout

/-! ### IDLE -/

/-- An idle block starts the frame of a command whose width check passes, and refuses the others (R91, R93). -/
theorem exec_idle_of_frame {i : Instr} {s : State} {F : List Slot} (hidle : s.phase = .idle) (hF : frameOf i s = some F) :
    exec i s = if widthOk i = true then .next (startFrame s) else rejectWidth s := by
  cases i
  case setLimit which =>
    cases hr : limitReg which with
    | none => simp [frameOf, hr] at hF
    | some reg => simp only [exec, execSetLimit, hr, transaction, hidle, widthOk, if_true]
  case decodeTemp | decodeStatus | encodeLimit | init | getAlertPin | getAlertStatus => simp [frameOf] at hF
  case write16 | write8 | read16 | read8 =>
    simp only [exec, execWrite16, execWrite8, execRead16, execRead8, rawTransaction, transaction, hidle, widthOk, beq_iff_eq,
      true_and, ne_eq, ite_not]
  case sleep | wakeup | tcritLock | tcritUnlock | windowLock | windowUnlock =>
    simp only [exec, execSleep, execWakeup, execTcritLock, execTcritUnlock, execWindowLock, execWindowUnlock,
      readModifyWriteSettle, readModifyWrite, hidle, widthOk, if_true]
  all_goals
    simp only [exec, execGetTemperature, execSetResolution, execAlertEnable, execGetManufacturerId, execGetDeviceId, transaction,
      hidle, widthOk, if_true]

/-- Only the selector 3 names no limit register (R113). -/
theorem limitReg_eq_none_iff (which : BitVec 2) : limitReg which = none ↔ which = 3#2 := by
  decide +revert

/-- A command without a frame completes at its acceptance, and writes no register but `RES` and, for INIT, `SLA`; the one exception is the
term of the illegal selector. -/
theorem exec_of_no_frame {i : Instr} {s : State} (hF : frameOf i s = none) :
    (i = .setLimit 3#2 ∧ exec i s = rejectWord s) ∨
    ∃ (r : Word) (a : SlaveAddr), (a = s.sla ∨ i = .init a) ∧
      exec i s = immediate (fun _ => complete r { s with sla := a }) s := by
  cases i
  case setLimit which =>
    have hsel : limitReg which = none := by simpa [frameOf] using hF
    obtain rfl := (limitReg_eq_none_iff which).mp hsel
    exact .inl ⟨rfl, rfl⟩
  case init a => exact .inr ⟨_, a, .inr rfl, rfl⟩
  case decodeTemp | decodeStatus | encodeLimit | getAlertPin | getAlertStatus => exact .inr ⟨_, s.sla, .inl rfl, rfl⟩
  all_goals simp [frameOf] at hF

/-! ### RUN -/

/-- What follows the frame is applied to a state that keeps the transaction, the parameters and the operand. -/
theorem frameStep_congr {F : List Slot} {done done' : State → State} {s : State}
    (h : ∀ u : State, u.tn = s.tn → u.cfg = s.cfg → u.curX = s.curX → done u = done' u) :
    frameStep F done s = frameStep F done' s := by
  have hnext (u : State) (htn : u.tn = s.tn) (hcfg : u.cfg = s.cfg) (hx : u.curX = s.curX) :
      nextSlot F.length done u = nextSlot F.length done' u := by
    simp only [nextSlot, h { u with fi := u.fi + 1#4 } htn hcfg hx]
  unfold frameStep
  split
  · rfl
  · split
    · rfl
    · rename_i c _ _ d _
      congr 1
      unfold exchange
      split
      · rfl
      · rfl
      · exact hnext _ (by simp [storeRx_eq]) (by simp [storeRx_eq]) (by simp [storeRx_eq])
      all_goals exact hnext _ rfl rfl rfl

/-- In RUN a command with a frame makes one step of that frame, and `afterFrame` follows the last one. -/
theorem exec_run_of_frame {i : Instr} {s : State} {F : List Slot} (hrun : s.phase = .run) (hF : frameOf i s = some F) :
    exec i s = frameStep F (afterFrame i) s := by
  cases i
  case setLimit which =>
    cases hr : limitReg which with
    | none => simp [frameOf, hr] at hF
    | some reg =>
      simp only [frameOf, hr, Option.map_some, Option.some.injEq] at hF
      subst hF
      simp only [exec, execSetLimit, hr, transaction, hrun]
      exact frameStep_congr fun u _ hcfg hx => by rw [afterFrame, hcfg, hx]
  case decodeTemp | decodeStatus | encodeLimit | init | getAlertPin | getAlertStatus => simp [frameOf] at hF
  case sleep | wakeup | tcritLock | tcritUnlock | windowLock | windowUnlock =>
    simp only [frameOf, frameOf.rmwFrame, Option.some.injEq] at hF
    subst hF
    simp only [exec, execSleep, execWakeup, execTcritLock, execTcritUnlock, execWindowLock, execWindowUnlock,
      readModifyWriteSettle, readModifyWrite, hrun]
    by_cases h : s.tn = 0#1
    · rw [if_pos h, if_pos h]
      exact frameStep_congr fun u htn _ _ => (afterRmw_of_read (htn.trans h)).symm
    · rw [if_neg h, if_neg h]
      exact frameStep_congr fun u htn _ _ => (afterRmw_of_write (htn ▸ h)).symm
  all_goals
    simp only [frameOf, Option.some.injEq] at hF
    subst hF
    simp only [exec, execWrite16, execWrite8, execRead16, execRead8, execGetTemperature, execSetResolution, execAlertEnable,
      execGetManufacturerId, execGetDeviceId, rawTransaction, transaction, hrun, reduceCtorEq, false_and, if_false]
    rfl

/-- A place of a frame is one of at most eight, so `FI` does not wrap in it (R32). -/
theorem fi_toNat_lt_length {F : List Slot} {c : Slot} {s : State} (hc : F[s.fi.toNat]? = some c) : s.fi.toNat < F.length :=
  (List.getElem?_eq_some_iff.mp hc).1

section
variable {i : Instr} {s : State} {F : List Slot} {c : Slot}

/-- While BUS has not answered, a frame waits (R35). -/
theorem exec_run_of_unanswered (hrun : s.phase = .run) (hF : frameOf i s = some F) (hc : F[s.fi.toNat]? = some c)
    (hbus : s.now.busRsp = none) : exec i s = .next s := by
  rw [exec_run_of_frame hrun hF]
  simp only [frameStep, hc, hbus]

/-- BUS's answer decides a frame's step. -/
theorem exec_run_of_answered {d : BusDraw} (hrun : s.phase = .run) (hF : frameOf i s = some F)
    (hc : F[s.fi.toNat]? = some c) (hbus : s.now.busRsp = some d) :
    exec i s = .next (exchange F.length (afterFrame i) c (answerTo c.prim d) s) := by
  rw [exec_run_of_frame hrun hF]
  simp only [frameStep, hc, hbus]

/-- A primitive that BUS lets pass advances the frame; after its last place `afterFrame` follows (R93). -/
theorem exec_run_of_accepted {d : BusDraw} (hrun : s.phase = .run) (hF : frameOf i s = some F)
    (hc : F[s.fi.toNat]? = some c) (hbus : s.now.busRsp = some d) (hacc : accepted (answerTo c.prim d) = true) :
    exec i s = .next (if s.fi.toNat + 1 = F.length then afterFrame i (passPlace c d s) else passPlace c d s) := by
  have hlt := fi_toNat_lt_length hc
  have h16 : s.fi.toNat + 1 < 16 := by have := frameOf_length_le hF; omega
  have hdest : c.dest ≠ none → ∃ k, c.prim = .rd k := frameOf_dest hF (List.mem_of_getElem? hc)
  have hfi : (storeRx c.dest d.data (emit (.bus c.prim (answerTo c.prim d)) s)).fi = s.fi := by
    rw [storeRx_eq, emit_fi]
  rw [exec_run_of_answered hrun hF hc hbus, exchange_of_accepted hacc hdest]
  by_cases hlast : s.fi.toNat + 1 = F.length
  · rw [nextSlot_of_last (by rwa [hfi]) (by rwa [hfi]), hfi, if_pos hlast, passPlace]
  · rw [nextSlot_of_lt (by rw [hfi]; omega) (by rwa [hfi]), hfi, if_neg hlast, passPlace]

/-- A primitive that BUS refuses fails the frame (R93, R144). -/
theorem exec_run_of_refused {d : BusDraw} (hrun : s.phase = .run) (hF : frameOf i s = some F)
    (hc : F[s.fi.toNat]? = some c) (hbus : s.now.busRsp = some d) (hacc : accepted (answerTo c.prim d) = false) :
    exec i s = .next (failFrame (failOf (answerTo c.prim d)) c.prim (emit (.bus c.prim (answerTo c.prim d)) s)) := by
  rw [exec_run_of_answered hrun hF hc hbus, exchange_of_refused hacc, failOf]

/-- The abort STOP: once answered, the pending error is raised (R144). -/
theorem exec_abort_of_answered {d : BusDraw} {f : BusFail} (habort : s.phase = .abort) (hF : frameOf i s = some F)
    (hpend : s.pend = some f) (hbus : s.now.busRsp = some d) :
    exec i s = .next (raiseError (failKind f) (busErrInfo s.tn s.fi) (emit (.bus .stop (answerTo .stop d)) s)) := by
  rw [exec_abort_eq_abortStep habort hF]
  simp only [abortStep, hpend, hbus]

theorem exec_abort_of_unanswered {f : BusFail} (habort : s.phase = .abort) (hF : frameOf i s = some F)
    (hpend : s.pend = some f) (hbus : s.now.busRsp = none) : exec i s = .next s := by
  rw [exec_abort_eq_abortStep habort hF]
  simp only [abortStep, hpend, hbus]

end

/-! ### SETTLE -/

/-- In SETTLE only SLEEP and WAKEUP have a meaning: the wait for TIMER (R120). -/
theorem exec_settle_of_frame {i : Instr} {s : State} {F : List Slot} (hsettle : s.phase = .settle) (hF : frameOf i s = some F) :
    exec i s = if isPower i = true then settleStep s else .fault .strayControl := by
  cases i
  case setLimit which =>
    cases hr : limitReg which with
    | none => simp [frameOf, hr] at hF
    | some reg => simp [exec, execSetLimit, hr, transaction, hsettle, isPower]
  case decodeTemp | decodeStatus | encodeLimit | init | getAlertPin | getAlertStatus => simp [frameOf] at hF
  case sleep | wakeup => simp [exec, execSleep, execWakeup, readModifyWriteSettle, hsettle, isPower]
  all_goals
    simp [exec, execWrite16, execWrite8, execRead16, execRead8, execGetTemperature, execSetResolution, execAlertEnable,
      execGetManufacturerId, execGetDeviceId, execTcritLock, execTcritUnlock, execWindowLock, execWindowUnlock, rawTransaction,
      transaction, readModifyWrite, hsettle, isPower]

/-! ### Inversion -/

/-- Everything one step of a command can do, phase by phase. -/
inductive ExecStep (i : Instr) (s : State) : State → Prop
  /-- A command without a frame completes at its acceptance. -/
  | atOnce (r : Word) (a : SlaveAddr) (hidle : s.phase = .idle) (ha : a = s.sla ∨ i = .init a) :
      ExecStep i s (complete r { s with sla := a })
  /-- The term of the illegal selector. -/
  | illegal (hi : i = .setLimit 3#2) : ExecStep i s (raiseError .illegalCommand 0#8 s)
  /-- The width check refuses the command. -/
  | wrongWidth (hidle : s.phase = .idle) : ExecStep i s (raiseError .invalidRegisterWidth 0#8 s)
  /-- The frame starts. -/
  | start (F : List Slot) (hidle : s.phase = .idle) (hF : frameOf i s = some F) (hwidth : widthOk i = true) :
      ExecStep i s (startFrame s)
  /-- BUS has not answered. -/
  | waitBus (hbusy : s.phase = .run ∨ s.phase = .abort) (hbus : s.now.busRsp = none) : ExecStep i s s
  /-- BUS lets a primitive before the frame's last pass. -/
  | pass (F : List Slot) (c : Slot) (d : BusDraw) (hrun : s.phase = .run) (hF : frameOf i s = some F)
      (hc : F[s.fi.toNat]? = some c) (hbus : s.now.busRsp = some d) (hmore : s.fi.toNat + 1 < F.length) :
      ExecStep i s (passPlace c d s)
  /-- BUS lets the frame's last primitive pass, its STOP. -/
  | finish (F : List Slot) (c : Slot) (d : BusDraw) (hrun : s.phase = .run) (hF : frameOf i s = some F)
      (hc : F[s.fi.toNat]? = some c) (hbus : s.now.busRsp = some d) (hacc : accepted (answerTo c.prim d) = true)
      (hlast : s.fi.toNat + 1 = F.length) : ExecStep i s (afterFrame i (passPlace c d s))
  /-- BUS refuses a primitive before the STOP. -/
  | refused (F : List Slot) (c : Slot) (d : BusDraw) (f : BusFail) (hrun : s.phase = .run) (hF : frameOf i s = some F)
      (hc : F[s.fi.toNat]? = some c) (hbus : s.now.busRsp = some d) (hstop : c.prim ≠ .stop) :
      ExecStep i s (enterAbort f (emit (.bus c.prim (answerTo c.prim d)) s))
  /-- BUS times out at the final STOP. -/
  | refusedStop (F : List Slot) (c : Slot) (d : BusDraw) (f : BusFail) (hrun : s.phase = .run) (hF : frameOf i s = some F)
      (hc : F[s.fi.toNat]? = some c) (hbus : s.now.busRsp = some d) :
      ExecStep i s (raiseError (failKind f) (busErrInfo s.tn s.fi) (emit (.bus c.prim (answerTo c.prim d)) s))
  /-- BUS answers the abort STOP. -/
  | aborted (d : BusDraw) (f : BusFail) (habort : s.phase = .abort) (hbus : s.now.busRsp = some d) :
      ExecStep i s (raiseError (failKind f) (busErrInfo s.tn s.fi) (emit (.bus .stop (answerTo .stop d)) s))
  /-- TIMER has not answered this wait. -/
  | waitTimer (hsettle : s.phase = .settle) : ExecStep i s s
  /-- TIMER answers this wait. -/
  | settled (hsettle : s.phase = .settle) : ExecStep i s (respond s)

/-- A step of a command that answers is one of `ExecStep`. -/
theorem execStep_of_exec {i : Instr} {s t : State} (h : exec i s = .next t) : ExecStep i s t := by
  cases hF : frameOf i s with
  | none =>
    rcases exec_of_no_frame hF with ⟨hi, hrej⟩ | ⟨r, a, ha, himm⟩
    · obtain rfl : raiseError .illegalCommand 0#8 s = t := by simpa [hrej, rejectWord] using h
      exact .illegal hi
    · obtain ⟨hidle, rfl⟩ := immediate_next_iff.mp (himm ▸ h)
      exact .atOnce r a hidle ha
  | some F =>
    cases hp : s.phase with
    | idle =>
      rw [exec_idle_of_frame hp hF] at h
      split at h
      · cases h
        exact .start F hp hF ‹_›
      · cases h
        exact .wrongWidth hp
    | run =>
      obtain ⟨c, hc, hwait | ⟨d, hbus, -⟩⟩ := frameStep_cases (exec_run_of_frame hp hF ▸ h)
      · obtain ⟨hbus, rfl⟩ := hwait
        exact .waitBus (.inl hp) hbus
      · cases hacc : accepted (answerTo c.prim d) with
        | true =>
          rw [exec_run_of_accepted hp hF hc hbus hacc] at h
          cases h
          split
          · exact .finish F c d hp hF hc hbus hacc ‹_›
          · have := fi_toNat_lt_length hc
            exact .pass F c d hp hF hc hbus (by omega)
        | false =>
          rw [exec_run_of_refused hp hF hc hbus hacc] at h
          cases h
          rcases failFrame_cases (failOf (answerTo c.prim d)) c.prim (emit (.bus c.prim (answerTo c.prim d)) s) with
            ⟨-, hfail⟩ | ⟨hstop, hfail⟩ <;> rw [hfail]
          · exact .refusedStop F c d _ hp hF hc hbus
          · exact .refused F c d _ hp hF hc hbus hstop
    | abort =>
      obtain ⟨f, -, ⟨hbus, rfl⟩ | ⟨d, hbus, rfl⟩⟩ := abortStep_cases (exec_abort_eq_abortStep hp hF ▸ h)
      · exact .waitBus (.inr hp) hbus
      · exact .aborted d f hp hbus
    | settle =>
      rw [exec_settle_of_frame hp hF] at h
      split at h
      · rw [settleStep_eq] at h
        cases h
        split
        · exact .settled hp
        · exact .waitTimer hp
      · cases h

end Sys2Proof.Machine
end

section
/-! PROOFS. The invariant of the block (10_state.md R22 to R31, 60_exceptions.md R140): what it says phase by phase, that it lets every
command answer, and that every step keeps it. -/

namespace Sys2Proof.Machine

/-! ### What the invariant says -/

/-- A block without an error satisfies the register rules where no status stands without its valid bit. -/
theorem registersOk_iff_of_no_error {s : State} (herr : s.err = 0#3) (hinfo : s.errInfo = 0#8) :
    registersOk s = true ↔ s.statV = 1#1 ∨ s.stat = 0#3 := by
  simp [registersOk, herr, hinfo]

/-- No status stands without its valid bit (R22, R23). -/
theorem stat_of_registersOk {s : State} (h : registersOk s = true) : s.statV = 1#1 ∨ s.stat = 0#3 := by
  simp only [registersOk, Bool.and_eq_true, Bool.or_eq_true, beq_iff_eq] at h
  exact h.2

/-- The error information of a bus error names the transaction and the index below three zero bits (R95). -/
theorem busErrInfo_upper (tn : BitVec 1) (fi : BitVec 4) : (busErrInfo tn fi).extractLsb' 5 3 = 0#3 := by
  have hlow : busErrInfo tn fi = 0#3 ++ (tn ++ fi) := BitVec.append_assoc
  rw [hlow]
  exact BitVec.extractLsb'_append_eq_left

theorem primAt_isSome_iff (F : Option (List Slot)) (s : State) :
    (primAt F s).isSome = true ↔ ∃ G c, F = some G ∧ G[s.fi.toNat]? = some c := by
  cases F with
  | none => simp [primAt]
  | some G => simp [primAt, Option.isSome_iff_exists]

theorem primAt_of_place {F : List Slot} {c : Slot} {s : State} (hc : F[s.fi.toNat]? = some c) :
    primAt (some F) s = some c.prim := by
  simp [primAt, hc]

theorem controlOk_idle {s : State} (hidle : s.phase = .idle) : controlOk s = true ↔ s.pend = none := by
  simp [controlOk, hidle]

theorem controlOk_busy {s : State} {i : Instr} (hbusy : s.phase ≠ .idle) (hdec : decode s.curCw = .ok i) :
    controlOk s = true ↔ (s.err = 0#3 ∧ s.errInfo = 0#8) ∧ pointOk i s = true := by
  cases hp : s.phase <;> simp_all [controlOk]

theorem pointOk_run {i : Instr} {s : State} (hrun : s.phase = .run) :
    pointOk i s = true ↔ (widthOk i = true ∧ (s.tn = 0#1 ∨ isRmw i = true)) ∧ s.pend = none ∧
      (primAt (frameOf i s) s).isSome = true := by
  simp [pointOk, hrun]

theorem pointOk_abort {i : Instr} {s : State} (habort : s.phase = .abort) :
    pointOk i s = true ↔ (widthOk i = true ∧ (s.tn = 0#1 ∨ isRmw i = true)) ∧ (s.pend ≠ none ∧
      (primAt (frameOf i s) s).isSome = true) ∧ primAt (frameOf i s) s ≠ some .stop := by
  simp [pointOk, habort]

theorem pointOk_settle {i : Instr} {s : State} (hsettle : s.phase = .settle) :
    pointOk i s = true ↔ (widthOk i = true ∧ (s.tn = 0#1 ∨ isRmw i = true)) ∧ (s.pend = none ∧ isPower i = true) ∧
      s.tn = 1#1 := by
  simp [pointOk, hsettle]

/-- SLEEP and WAKEUP are RMW commands (R122, R123). -/
theorem isRmw_of_isPower {i : Instr} (h : isPower i = true) : isRmw i = true := by
  simp only [isPower, Bool.or_eq_true, beq_iff_eq] at h
  rcases h with rfl | rfl <;> rfl

/-- An RMW command always has a frame (R121). -/
theorem frameOf_isSome_of_isRmw {i : Instr} (h : isRmw i = true) (s : State) : ∃ F, frameOf i s = some F := by
  cases i
  case sleep | wakeup | tcritLock | tcritUnlock | windowLock | windowUnlock => exact ⟨_, rfl⟩
  all_goals cases h

/-! ### Progress -/

/-- At a point of its rule a command answers, whatever BUS and TIMER do. -/
theorem exec_progress {i : Instr} {s : State} (hpoint : s.phase ≠ .idle → pointOk i s = true) : ∃ t, exec i s = .next t := by
  have place (h : (primAt (frameOf i s) s).isSome = true) : ∃ F c, frameOf i s = some F ∧ F[s.fi.toNat]? = some c :=
    (primAt_isSome_iff _ s).mp h
  cases hp : s.phase with
  | idle =>
    cases hF : frameOf i s with
    | none =>
      rcases exec_of_no_frame hF with ⟨-, hrej⟩ | ⟨r, a, -, himm⟩
      · exact ⟨_, hrej⟩
      · exact ⟨_, himm.trans (immediate_next_iff.mpr ⟨hp, rfl⟩)⟩
    | some F =>
      rw [exec_idle_of_frame hp hF]
      split
      · exact ⟨_, rfl⟩
      · exact ⟨_, rfl⟩
  | run =>
    obtain ⟨-, -, hprim⟩ := (pointOk_run hp).mp (hpoint (by simp [hp]))
    obtain ⟨F, c, hF, hc⟩ := place hprim
    cases hbus : s.now.busRsp with
    | none => exact ⟨_, exec_run_of_unanswered hp hF hc hbus⟩
    | some d => exact ⟨_, exec_run_of_answered hp hF hc hbus⟩
  | abort =>
    obtain ⟨-, ⟨hpend, hprim⟩, -⟩ := (pointOk_abort hp).mp (hpoint (by simp [hp]))
    obtain ⟨F, c, hF, -⟩ := place hprim
    obtain ⟨f, hf⟩ := Option.ne_none_iff_exists'.mp hpend
    cases hbus : s.now.busRsp with
    | none => exact ⟨_, exec_abort_of_unanswered hp hF hf hbus⟩
    | some d => exact ⟨_, exec_abort_of_answered hp hF hf hbus⟩
  | settle =>
    obtain ⟨-, ⟨-, hpower⟩, -⟩ := (pointOk_settle hp).mp (hpoint (by simp [hp]))
    obtain ⟨F, hF⟩ := frameOf_isSome_of_isRmw (isRmw_of_isPower hpower) s
    rw [exec_settle_of_frame hp hF, if_pos hpower, settleStep_eq]
    exact ⟨_, rfl⟩

/-! ### Preservation -/

/-- A command that completes without an error ends in the invariant. -/
theorem inv_respond {s : State} (hpend : s.pend = none) (herr : s.err = 0#3) (hinfo : s.errInfo = 0#8)
    (hstat : s.statV = 1#1 ∨ s.stat = 0#3) : Inv (respond s) :=
  ⟨(controlOk_idle rfl).mpr hpend, (registersOk_iff_of_no_error (s := respond s) herr hinfo).mpr hstat⟩

/-- A command that ends with an error whose information fits its kind ends in the invariant. -/
theorem inv_raiseError {k : ErrKind} {info : Byte} {s : State} (hupper : info.extractLsb' 5 3 = 0#3)
    (hkind : info = 0#8 ∨ k = .busNack ∨ k = .busTimeout) (hstat : s.statV = 1#1 ∨ s.stat = 0#3) :
    Inv (raiseError k info s) := by
  refine ⟨(controlOk_idle rfl).mpr rfl, ?_⟩
  have hcode : (errCode k).toNat ≤ 4 := by cases k <;> decide
  have hbus : errCode k = 1#3 ∨ errCode k = 2#3 ∨ info = 0#8 := by
    rcases hkind with rfl | rfl | rfl
    · exact .inr (.inr rfl)
    · exact .inl rfl
    · exact .inr (.inl rfl)
  simp only [registersOk, raiseError_err, raiseError_errInfo, raiseError_res, raiseError_statV, raiseError_stat, Bool.and_eq_true,
    Bool.or_eq_true, beq_iff_eq]
  exact ⟨⟨⟨⟨decide_eq_true hcode, hupper⟩, or_assoc.mpr hbus⟩, .inr trivial⟩, hstat⟩

/-- A bus error ends in the invariant. -/
theorem inv_raise_busError (f : BusFail) (tn : BitVec 1) (fi : BitVec 4) {s : State} (hstat : s.statV = 1#1 ∨ s.stat = 0#3) :
    Inv (raiseError (failKind f) (busErrInfo tn fi) s) :=
  inv_raiseError (busErrInfo_upper tn fi) (.inr (by cases f <;> simp [failKind])) hstat

/-- A busy block without an error that stands at a point of its command is in the invariant. -/
theorem inv_of_point {i : Instr} {s : State} (hbusy : s.phase ≠ .idle) (hdec : decode s.curCw = .ok i) (herr : s.err = 0#3)
    (hinfo : s.errInfo = 0#8) (hstat : s.statV = 1#1 ∨ s.stat = 0#3) (hpoint : pointOk i s = true) : Inv s :=
  ⟨(controlOk_busy hbusy hdec).mpr ⟨⟨herr, hinfo⟩, hpoint⟩, (registersOk_iff_of_no_error herr hinfo).mpr hstat⟩

/-- A frame has a first place. -/
theorem primAt_first_isSome {i : Instr} {s : State} {F : List Slot} (hF : frameOf i s = some F) (hfi : s.fi = 0#4) :
    (primAt (frameOf i s) s).isSome = true := by
  rw [hF, primAt_isSome_iff]
  rcases frameOf_cases hF with ⟨_, _, rfl⟩ | ⟨_, _, rfl⟩ | ⟨_, rfl⟩ | ⟨_, rfl⟩ <;>
    exact ⟨_, slot .start, rfl, by rw [hfi]; rfl⟩

/-- A place before the last that BUS lets pass leads to the next place. -/
theorem pointOk_passPlace {i : Instr} {s : State} {F : List Slot} (c : Slot) (d : BusDraw) (hrun : s.phase = .run)
    (hF : frameOf i s = some F) (hmore : s.fi.toNat + 1 < F.length) (hpoint : pointOk i s = true) :
    pointOk i (passPlace c d s) = true := by
  obtain ⟨hcmd, hpend, -⟩ := (pointOk_run hrun).mp hpoint
  have hfi : (s.fi + 1#4).toNat = s.fi.toNat + 1 := by
    have := frameOf_length_le hF
    simp [BitVec.toNat_add]
    omega
  refine (pointOk_run (by simpa)).mpr ⟨by simpa using hcmd, by simpa, ?_⟩
  rw [frameOf_passPlace, hF, primAt_isSome_iff]
  exact ⟨F, F[s.fi.toNat + 1], rfl, by simp [hfi, hmore]⟩

/-- What follows a completed frame keeps the invariant: the end of the command, the write of an RMW command or its settle wait. -/
theorem inv_afterFrame {i : Instr} {s u : State} {F : List Slot} (hF : frameOf i s = some F) (htn : u.tn = s.tn)
    (hwidth : widthOk i = true) (hpend : u.pend = none) (hdec : decode u.curCw = .ok i) (herr : u.err = 0#3)
    (hinfo : u.errInfo = 0#8) (hstat : u.statV = 1#1 ∨ u.stat = 0#3) : Inv (afterFrame i u) := by
  rcases afterFrame_cases hF htn with ⟨r, hr⟩ | ⟨-, r, hr⟩ | ⟨hrmw, -, hr⟩ | ⟨hpower, hwrite, r, hr⟩ <;> rw [hr]
  · exact inv_respond hpend herr hinfo hstat
  · exact inv_respond hpend herr hinfo (.inl rfl)
  · obtain ⟨G, hG⟩ := frameOf_isSome_of_isRmw hrmw (startWrite u)
    exact inv_of_point (i := i) (by simp) hdec herr hinfo hstat
      ((pointOk_run rfl).mpr ⟨⟨hwidth, .inr hrmw⟩, hpend, primAt_first_isSome hG rfl⟩)
  · have htn1 : u.tn = 1#1 := (BitVec.eq_zero_or_eq_one u.tn).resolve_left (htn ▸ hwrite)
    exact inv_of_point (i := i) (by simp) hdec herr hinfo hstat
      ((pointOk_settle rfl).mpr ⟨⟨hwidth, .inr (isRmw_of_isPower hpower)⟩, ⟨hpend, hpower⟩, htn1⟩)

/-- Every step of a command at a point of its rule keeps the invariant. -/
theorem inv_of_execStep {i : Instr} {s t : State} (h : ExecStep i s t) (hdec : decode s.curCw = .ok i) (herr : s.err = 0#3)
    (hinfo : s.errInfo = 0#8) (hstat : s.statV = 1#1 ∨ s.stat = 0#3)
    (hidlePoint : s.phase = .idle → s.pend = none ∧ s.tn = 0#1) (hpoint : s.phase ≠ .idle → pointOk i s = true) : Inv t := by
  have busy (hbusy : s.phase ≠ .idle) : Inv s := inv_of_point hbusy hdec herr hinfo hstat (hpoint hbusy)
  have running (hrun : s.phase = .run) := (pointOk_run hrun).mp (hpoint (by simp [hrun]))
  cases h with
  | atOnce r a hidle => exact inv_respond (hidlePoint hidle).1 herr hinfo hstat
  | illegal => exact inv_raiseError (by decide) (.inl rfl) hstat
  | wrongWidth => exact inv_raiseError (by decide) (.inl rfl) hstat
  | start F hidle hF hwidth =>
    obtain ⟨hpend, htn⟩ := hidlePoint hidle
    have hF' : frameOf i (startFrame s) = some F := (frameOf_startFrame i s).trans hF
    exact inv_of_point (i := i) (by simp) hdec herr hinfo hstat
      ((pointOk_run rfl).mpr ⟨⟨hwidth, .inl htn⟩, hpend, primAt_first_isSome hF' rfl⟩)
  | waitBus hbusy => exact busy (by rcases hbusy with h | h <;> simp [h])
  | pass F c d hrun hF hc hbus hmore =>
    exact inv_of_point (i := i) (by simp [hrun]) (by simpa) (by simpa) (by simpa) (by simpa)
      (pointOk_passPlace c d hrun hF hmore (hpoint (by simp [hrun])))
  | finish F c d hrun hF =>
    obtain ⟨⟨hwidth, -⟩, hpend, -⟩ := running hrun
    exact inv_afterFrame hF (by simp) hwidth (by simpa) (by simpa) (by simpa) (by simpa) (by simpa)
  | refused F c d f hrun hF hc hbus hstop =>
    obtain ⟨hcmd, -, -⟩ := running hrun
    have hprim : primAt (frameOf i (enterAbort f (emit (.bus c.prim (answerTo c.prim d)) s)))
        (enterAbort f (emit (.bus c.prim (answerTo c.prim d)) s)) = some c.prim := by
      rw [frameOf_enterAbort, frameOf_emit, hF]
      exact primAt_of_place hc
    refine inv_of_point (i := i) (by simp) hdec herr hinfo hstat ((pointOk_abort rfl).mpr ⟨hcmd, ?_⟩)
    rw [hprim]
    simpa using hstop
  | refusedStop => exact inv_raise_busError _ _ _ hstat
  | aborted => exact inv_raise_busError _ _ _ hstat
  | waitTimer hsettle => exact busy (by simp [hsettle])
  | settled hsettle =>
    obtain ⟨-, ⟨hpend, -⟩, -⟩ := (pointOk_settle hsettle).mp (hpoint (by simp [hsettle]))
    exact inv_respond hpend herr hinfo hstat

/-- A command that answers at a point of its rule answers with a state of the invariant. -/
theorem exec_keeps_inv {i : Instr} {s : State} (hdec : decode s.curCw = .ok i) (herr : s.err = 0#3)
    (hinfo : s.errInfo = 0#8) (hstat : s.statV = 1#1 ∨ s.stat = 0#3)
    (hidlePoint : s.phase = .idle → s.pend = none ∧ s.tn = 0#1) (hpoint : s.phase ≠ .idle → pointOk i s = true) :
    ∃ t, exec i s = .next t ∧ Inv t := by
  obtain ⟨t, ht⟩ := exec_progress hpoint
  exact ⟨t, ht, inv_of_execStep (execStep_of_exec ht) hdec herr hinfo hstat hidlePoint hpoint⟩

/-- The block answers from every state of the invariant, with a state of the invariant. -/
theorem blockStep_keeps_inv {s : State} (h : Inv s) : ∃ t, blockStep s = .next t ∧ Inv t := by
  obtain ⟨hcontrol, hregs⟩ := h
  have hstat := stat_of_registersOk hregs
  by_cases hidle : s.phase = .idle
  · have hpend := (controlOk_idle hidle).mp hcontrol
    simp only [blockStep, hidle, idleStep]
    split
    · unfold runAccepted
      split
      · rename_i i hdec
        exact exec_keeps_inv hdec rfl rfl hstat (fun _ => ⟨hpend, rfl⟩) (fun hne => absurd hidle hne)
      · exact ⟨_, rfl, inv_raiseError (by decide) (.inl rfl) hstat⟩
    · exact ⟨s, rfl, hcontrol, hregs⟩
  · have hlatched : blockStep s = runLatched s := by cases hp : s.phase <;> simp_all [blockStep]
    rw [hlatched, runLatched]
    split
    · rename_i i hdec
      obtain ⟨⟨herr, hinfo⟩, hpoint⟩ := (controlOk_busy hidle hdec).mp hcontrol
      exact exec_keeps_inv hdec herr hinfo hstat (fun h => absurd h hidle) (fun _ => hpoint)
    · rename_i e hdec
      cases hp : s.phase <;> simp_all [controlOk]

/-- The invariant does not speak of the ports. -/
theorem inv_advance_iff (s : State) : Inv (advance s) ↔ Inv s := Iff.rfl

/-- Settles O57: the block resets into IDLE with no failure pending, no error and no status. -/
theorem resetStateSatisfiesTheInvariant : Obligations.ResetStateSatisfiesTheInvariant :=
  ⟨(controlOk_idle rfl).mpr rfl, (registersOk_iff_of_no_error rfl rfl).mpr (.inr rfl)⟩

/-- A reset step ends in the invariant, from any state. -/
theorem inv_resetBlock (s : State) : Inv (resetBlock s) :=
  ⟨(controlOk_idle rfl).mpr rfl, (registersOk_iff_of_no_error rfl rfl).mpr (.inr rfl)⟩

/-- Settles O58: a reset step gives a state of the invariant from any state, and the block's own step keeps it. -/
theorem everyStepCompletesAndKeepsTheInvariant : Obligations.EveryStepCompletesAndKeepsTheInvariant := by
  intro s h
  unfold step
  split
  · exact ⟨_, rfl, inv_resetBlock s⟩
  · obtain ⟨t, ht, hinv⟩ := blockStep_keeps_inv h
    exact ⟨advance t, advanced_of_next ht, (inv_advance_iff t).mpr hinv⟩

end Sys2Proof.Machine
end

section
/-! PROOFS. The command port, the frame engine and the error path (10_state.md R28 to R35, 41_transactions.md R90 to R94,
60_exceptions.md R141 to R144). -/

namespace Sys2Proof.Machine

/-! ### Steps of the block -/

/-- A step without reset is the block's own. -/
theorem step_of_no_reset {s : State} (hrst : s.now.rst = false) : step s = advanced (blockStep s) := by
  simp [step, hrst]

/-- An idle block that is presented a command accepts it (R34). -/
theorem step_of_accepting {s : State} (hidle : s.phase = .idle) (hrst : s.now.rst = false) (hvalid : s.now.cmdValid = true) :
    step s = advanced (runAccepted (accept s)) := by
  simp [step_of_no_reset hrst, blockStep, hidle, idleStep, hvalid]

/-- An idle block that is presented no command waits (R34). -/
theorem step_of_waiting {s : State} (hidle : s.phase = .idle) (hrst : s.now.rst = false) (hvalid : s.now.cmdValid = false) :
    step s = .next (advance s) := by
  simp [step_of_no_reset hrst, blockStep, hidle, idleStep, hvalid, advanced]

/-- A busy block goes on with the command it latched (R29). -/
theorem step_of_busy {s : State} (hbusy : s.phase ≠ .idle) (hrst : s.now.rst = false) : step s = advanced (runLatched s) := by
  rw [step_of_no_reset hrst]
  cases hp : s.phase <;> simp_all [blockStep]

theorem runAccepted_of_decode {s : State} {i : Instr} (hdec : decode s.curCw = .ok i) : runAccepted s = exec i s := by
  simp [runAccepted, hdec]

theorem runLatched_of_decode {s : State} {i : Instr} (hdec : decode s.curCw = .ok i) : runLatched s = exec i s := by
  simp [runLatched, hdec]

/-- Settles O16: the accepted word is the one latched, so the command that runs is the one it decodes to. -/
theorem acceptingStepRunsTheDecodedCommand : Obligations.AcceptingStepRunsTheDecodedCommand := by
  intro s i hidle hrst hvalid hdec
  rw [step_of_accepting hidle hrst hvalid, runAccepted_of_decode hdec]
  rfl

/-- Settles O17: a busy block reads its command from the latched word. -/
theorem busyStepRunsTheLatchedCommand : Obligations.BusyStepRunsTheLatchedCommand := by
  intro s i hbusy hrst hdec
  rw [step_of_busy hbusy hrst, runLatched_of_decode hdec]

/-- Settles O18: an idle block acts on no port but `rst` and `cmd_valid`. -/
theorem idleBlockWaits : Obligations.IdleBlockWaits := fun _ => step_of_waiting

/-- Settles O19: the word is rejected, and the error is raised in an idle block that holds no failure. -/
theorem illegalWordEndsAtOnce : Obligations.IllegalWordEndsAtOnce := by
  intro s hidle hpend hrst hvalid hrow
  obtain ⟨e, he⟩ := decode_error_of_no_row hrow
  have hreject : runAccepted (accept s) = .next (raiseError .illegalCommand 0#8 (accept s)) := by
    simp [runAccepted, he, rejectWord]
  rw [step_of_accepting hidle hrst hvalid, hreject, raiseError_of_idle (s := accept s) _ _ hidle hpend]
  rfl

/-- Settles O23: the selector 3 names no limit register, so `exec` rejects the term as the block does the word. -/
theorem limitSelectorThreeIsIllegal : Obligations.LimitSelectorThreeIsIllegal := by
  intro s hidle hpend
  have hreject : exec (.setLimit 3#2) s = .next (raiseError .illegalCommand 0#8 s) := rfl
  rw [hreject, raiseError_of_idle _ _ hidle hpend]
  rfl

/-- Settles O56: a step with `rst` is the reset of the block and nothing else. -/
theorem resetAbandonsTheCommand : Obligations.ResetAbandonsTheCommand := by
  intro s hrst
  rw [step, if_pos hrst]
  rfl

/-! ### The frame engine -/

/-- Settles O24: in IDLE a command with a frame only starts it. -/
theorem framedCommandStartsItsFrame : Obligations.FramedCommandStartsItsFrame := by
  intro i s F hidle hwidth hF
  rw [exec_idle_of_frame hidle hF, if_pos hwidth]
  rfl

/-- `FI` counts the places of a frame. -/
theorem ofNat_fi_succ (fi : BitVec 4) : BitVec.ofNat 4 (fi.toNat + 1) = fi + 1#4 := by
  rw [BitVec.ofNat_add, BitVec.ofNat_toNat, BitVec.setWidth_eq]

/-- Settles O25: a place before the last that BUS lets pass. -/
theorem answeredPrimitiveAdvancesTheFrame : Obligations.AnsweredPrimitiveAdvancesTheFrame := by
  intro i s F c d hrun hF hc hmore hbus hacc
  rw [exec_run_of_accepted hrun hF hc hbus hacc, if_neg (Nat.ne_of_lt hmore), passPlace_eq, ofNat_fi_succ]

/-- Settles O26: a place that BUS refuses and that is not the STOP. -/
theorem refusedPrimitiveEntersAbort : Obligations.RefusedPrimitiveEntersAbort := by
  intro i s F c d hrun hF hc hstop hbus hacc
  rw [exec_run_of_refused hrun hF hc hbus hacc, failFrame, if_neg hstop]
  rfl

/-- Settles O27: in RUN the place of the frame waits for its answer, in ABORT the abort STOP does. -/
theorem unansweredBlockWaits : Obligations.UnansweredBlockWaits := by
  intro i s hsome hbus hpoint
  rcases hpoint with ⟨hrun, hprim⟩ | ⟨habort, hpend⟩
  · obtain ⟨F, c, hF, hc⟩ := (primAt_isSome_iff _ s).mp hprim
    exact exec_run_of_unanswered hrun hF hc hbus
  · obtain ⟨F, hF⟩ := Option.isSome_iff_exists.mp hsome
    obtain ⟨f, hf⟩ := Option.ne_none_iff_exists'.mp hpend
    exact exec_abort_of_unanswered habort hF hf hbus

/-- The code of a bus error (R140). -/
theorem errCode_failKind (f : BusFail) : errCode (failKind f) = if f = .nack then 1#3 else 2#3 := by
  cases f <;> rfl

/-- Settles O28: the abort step raises the pending failure whatever the answer. -/
theorem abortStopEndsTheCommand : Obligations.AbortStopEndsTheCommand := by
  intro i s f d hsome habort hpend hbus code info
  obtain ⟨F, hF⟩ := Option.isSome_iff_exists.mp hsome
  rw [exec_abort_of_answered habort hF hpend hbus, show code = errCode (failKind f) from (errCode_failKind f).symm]
  rfl

/-- Settles O31: a draw for each answer listed, and each answer to a draw is listed. -/
theorem drawsGiveExactlyTheListedAnswers : Obligations.DrawsGiveExactlyTheListedAnswers := by
  have hcond (p : Prim) (hp : p = .start ∨ p = .restart ∨ p = .stop) (d : BusDraw) :
      answerTo p d = if d.timeout then .timeout else .ok := by
    rcases hp with rfl | rfl | rfl <;> rfl
  intro a
  refine ⟨fun p hp => ⟨?_, ?_⟩, fun b => ⟨?_, ?_⟩, fun k => ⟨?_, ?_⟩⟩
  · rintro ⟨d, rfl⟩
    rw [hcond p hp]
    split <;> simp
  · rintro (rfl | rfl)
    · exact ⟨⟨false, false, 0#8⟩, hcond p hp _⟩
    · exact ⟨⟨true, false, 0#8⟩, hcond p hp _⟩
  · rintro ⟨⟨timeout, nack, data⟩, rfl⟩
    cases timeout <;> cases nack <;> simp [answerTo]
  · rintro (rfl | rfl | rfl)
    · exact ⟨⟨false, false, 0#8⟩, rfl⟩
    · exact ⟨⟨false, true, 0#8⟩, rfl⟩
    · exact ⟨⟨true, false, 0#8⟩, rfl⟩
  · rintro ⟨⟨timeout, nack, data⟩, rfl⟩
    cases timeout <;> simp [answerTo]
  · rintro (⟨b, rfl⟩ | rfl)
    · exact ⟨⟨false, false, b⟩, rfl⟩
    · exact ⟨⟨true, false, 0#8⟩, rfl⟩

end Sys2Proof.Machine
end

section
/-! PROOFS. Statements over all commands and all steps: what an exchange, a response, a settle wait and the status cache have to do
with the step that makes them (10_state.md R21 to R35), and what a step does not read (R29, 70_reset_and_hazards.md R160). -/

namespace Sys2Proof.Machine

/-! ### What a step writes -/

/-- The STOP of a frame is its last place, and there an answer that lets it pass is no timeout. -/
theorem timeout_of_last {i : Instr} {s : State} {F : List Slot} {k : Nat} {c : Slot} {d : BusDraw}
    (hF : frameOf i s = some F) (hc : F[k]? = some c) (hlast : k + 1 = F.length) (hacc : accepted (answerTo c.prim d) = true) :
    d.timeout = false := by
  rw [(frameOf_stop_iff_last hF hc).mpr hlast] at hacc
  cases ht : d.timeout
  · rfl
  · simp [answerTo, ht, accepted] at hacc

/-- Settles O53: of all the steps of `ExecStep` only the end of GET_TEMPERATURE's frame writes the cache. -/
theorem onlyASuccessfulGetTemperatureWritesTheStatus : Obligations.OnlyASuccessfulGetTemperatureWritesTheStatus := by
  intro i s t h hchange
  cases execStep_of_exec h with
  | finish F c d hrun hF hc hbus hacc hlast =>
    rcases afterFrame_cases (u := passPlace c d s) hF (by simp) with ⟨r, hr⟩ | ⟨rfl, r, hr⟩ | ⟨-, -, hr⟩ | ⟨-, -, r, hr⟩
    · simp [hr] at hchange
    · obtain rfl : frameR16 s.sla regAmbient = F := Option.some.inj hF
      have hfi : s.fi = 7#4 := BitVec.eq_of_toNat_eq (Nat.succ.inj hlast)
      have hdest : c.dest = none := by
        have hplace : some (slot .stop) = some c := by rw [← hc, hfi]; rfl
        exact (Option.some.inj hplace) ▸ rfl
      have hraw : rxWord (passPlace c d s) = s.rxh ++ s.rxl := by simp [rxWord, passPlace_eq, hdest]
      rw [hr]
      refine ⟨rfl, hrun, hfi, ⟨d, hbus, timeout_of_last hF hc hlast hacc⟩, rfl, ?_, rfl⟩
      rw [complete_stat, refreshStatus_stat, hraw, statusFlags_eq]
    · simp [hr] at hchange
    · simp [hr] at hchange
  | _ => simp at hchange

/-- Settles O54: of all the steps of `ExecStep` only INIT's completion writes the address, and none writes the latches, the parameters
or the environment. -/
theorem commandsKeepAddressLatchesAndParameters : Obligations.CommandsKeepAddressLatchesAndParameters := by
  intro i s t h
  cases execStep_of_exec h with
  | atOnce r a hidle ha => exact ⟨ha, rfl, rfl, rfl, rfl⟩
  | finish F c d hrun hF =>
    rcases afterFrame_cases (u := passPlace c d s) hF (by simp) with ⟨r, hr⟩ | ⟨-, r, hr⟩ | ⟨-, -, hr⟩ | ⟨-, -, r, hr⟩ <;>
      simp [hr]
  | _ => simp

/-- A step of a command responds exactly when the block becomes idle, with the three response registers. -/
theorem execStep_response {i : Instr} {s t : State} (h : ExecStep i s t) :
    t.out.countP isRsp = s.out.countP isRsp + (if t.phase = .idle then 1 else 0) ∧
    (t.phase = .idle → t.out.head? = some (.rsp t.res t.err t.errInfo)) := by
  cases h with
  | waitBus hbusy => rcases hbusy with h | h <;> simp [h]
  | waitTimer hsettle => simp [hsettle]
  | pass F c d hrun => simp [hrun, isRsp]
  | finish F c d hrun hF =>
    rcases afterFrame_cases (u := passPlace c d s) hF (by simp) with ⟨r, hr⟩ | ⟨-, r, hr⟩ | ⟨-, -, hr⟩ | ⟨-, -, r, hr⟩ <;>
      simp [hr, List.countP_cons, isRsp]
  | _ => simp [List.countP_cons, isRsp]

/-- Settles O21: the response is that of the command's step, or of the rejected word's error. -/
theorem everyCommandRespondsOnceWhenItEnds : Obligations.EveryCommandRespondsOnceWhenItEnds := by
  intro s t hrst hactive h
  rcases step_cases h with ⟨hr, -⟩ | ⟨-, u, hblock, rfl⟩
  · simp [hrst] at hr
  · rw [advance_out, advance_phase, advance_res, advance_err, advance_errInfo]
    rcases blockStep_cases hblock with ⟨hidle, hvalid, -⟩ | ⟨-, -, i, -, hexec⟩ | ⟨-, -, -, rfl⟩ | ⟨-, i, -, hexec⟩
    · simp [hidle, hvalid] at hactive
    · exact execStep_response (s := accept s) (execStep_of_exec hexec)
    · simp [List.countP_cons, isRsp]
    · exact execStep_response (execStep_of_exec hexec)

/-! ### The primitive requested -/

/-- The exchange that a request and an answer of BUS make. -/
def exchanged : Option Prim → Option BusDraw → List Event
  | some p, some d => [.bus p (answerTo p d)]
  | _, _ => []

/-- At its acceptance a command exchanges nothing. -/
theorem execStep_idle_bus {i : Instr} {s t : State} (h : ExecStep i s t) (hidle : s.phase = .idle) :
    t.out.filter isBus = s.out.filter isBus := by
  cases h with
  | atOnce | illegal | wrongWidth => simp [isBus]
  | start => simp
  | waitBus hbusy => rcases hbusy with h | h <;> simp [h] at hidle
  | pass _ _ _ hphase | finish _ _ _ hphase | refused _ _ _ _ hphase | refusedStop _ _ _ _ hphase | aborted _ _ hphase
  | waitTimer hphase | settled hphase => simp [hphase] at hidle

/-- In RUN the primitive requested is the one at `FI`. -/
theorem busReq_run {i : Instr} {s : State} {F : List Slot} {c : Slot} (hrun : s.phase = .run) (hdec : decode s.curCw = .ok i)
    (hF : frameOf i s = some F) (hc : F[s.fi.toNat]? = some c) : busReq s = some c.prim := by
  simp [busReq, hrun, hdec, hF, primAt_of_place hc]

/-- A busy block exchanges the primitive it requests, when BUS answers. -/
theorem execStep_busy_bus {i : Instr} {s t : State} (h : ExecStep i s t) (hbusy : s.phase ≠ .idle)
    (hdec : decode s.curCw = .ok i) :
    t.out.filter isBus = exchanged (busReq s) s.now.busRsp ++ s.out.filter isBus := by
  cases h with
  | atOnce _ _ hidle | wrongWidth hidle | start _ hidle => exact absurd hidle hbusy
  | illegal hi =>
    have hwf := (wf_and_encode_of_decode hdec).1
    rw [hi] at hwf
    exact absurd hwf (by decide)
  | waitBus _ hbus => simp [hbus, exchanged]
  | pass F c d hrun hF hc hbus => simp [busReq_run hrun hdec hF hc, hbus, exchanged, List.filter_cons, isBus]
  | finish F c d hrun hF hc hbus =>
    rcases afterFrame_cases (u := passPlace c d s) hF (by simp) with ⟨r, hr⟩ | ⟨-, r, hr⟩ | ⟨-, -, hr⟩ | ⟨-, -, r, hr⟩ <;>
      simp [hr, busReq_run hrun hdec hF hc, hbus, exchanged, List.filter_cons, isBus]
  | refused F c d f hrun hF hc hbus => simp [busReq_run hrun hdec hF hc, hbus, exchanged, List.filter_cons, isBus]
  | refusedStop F c d f hrun hF hc hbus => simp [busReq_run hrun hdec hF hc, hbus, exchanged, List.filter_cons, isBus]
  | aborted d f habort hbus => simp [busReq, habort, hbus, exchanged, List.filter_cons, isBus]
  | waitTimer hsettle => simp [busReq, hsettle, exchanged]
  | settled hsettle => simp [busReq, hsettle, exchanged, isBus]

/-- Settles O30: an idle block requests nothing and exchanges nothing; a busy one exchanges what it requests. -/
theorem exchangedPrimitiveIsTheOneRequested : Obligations.ExchangedPrimitiveIsTheOneRequested := by
  intro s t hrst h
  have hexchanged : t.out.filter isBus = exchanged (busReq s) s.now.busRsp ++ s.out.filter isBus := by
    rcases step_cases h with ⟨hr, -⟩ | ⟨-, u, hblock, rfl⟩
    · simp [hrst] at hr
    · rw [advance_out]
      have hnone (hidle : s.phase = .idle) : exchanged (busReq s) s.now.busRsp = [] := by simp [busReq, hidle, exchanged]
      rcases blockStep_cases hblock with ⟨hidle, -, rfl⟩ | ⟨hidle, -, i, -, hexec⟩ | ⟨hidle, -, -, rfl⟩ | ⟨hbusy, i, hdec, hexec⟩
      · simp [hnone hidle]
      · rw [hnone hidle]
        exact execStep_idle_bus (s := accept s) (execStep_of_exec hexec) hidle
      · simp [hnone hidle, isBus]
      · exact execStep_busy_bus (execStep_of_exec hexec) hbusy hdec
  rw [hexchanged]
  cases busReq s <;> cases s.now.busRsp <;> rfl

/-! ### What a step does not read -/

theorem advance_respond (s : State) : advance (respond s) = respond (advance s) := rfl

theorem advance_complete (r : Word) (s : State) : advance (complete r s) = complete r (advance s) := rfl

theorem advance_raiseError (k : ErrKind) (info : Byte) (s : State) :
    advance (raiseError k info s) = raiseError k info (advance s) := rfl

theorem advance_emit (e : Event) (s : State) : advance (emit e s) = emit e (advance s) := rfl

theorem advance_startFrame (s : State) : advance (startFrame s) = startFrame (advance s) := rfl

theorem advance_passPlace (c : Slot) (d : BusDraw) (s : State) : advance (passPlace c d s) = passPlace c d (advance s) := by
  rw [passPlace_eq, passPlace_eq]
  rfl

theorem advance_startSettle (s : State) : advance (startSettle s) = startSettle (advance s) := rfl

theorem advance_afterRmw (f : Half → Half) {done : State → State} (hdone : ∀ u, advance (done u) = done (advance u)) (u : State) :
    advance (afterFrame.afterRmw f done u) = afterFrame.afterRmw f done (advance u) := by
  by_cases h : u.tn = 0#1
  · rw [afterRmw_of_read h, afterRmw_of_read (u := advance u) h]
    rfl
  · rw [afterRmw_of_write h, afterRmw_of_write (u := advance u) h, hdone]
    rfl

/-- The environment moves on independently of what the end of a frame does. -/
theorem advance_afterFrame (i : Instr) (u : State) : advance (afterFrame i u) = afterFrame i (advance u) := by
  cases i
  case sleep | wakeup => exact advance_afterRmw _ advance_startSettle u
  case tcritLock | tcritUnlock | windowLock | windowUnlock => exact advance_afterRmw _ advance_respond u
  all_goals rfl

theorem advance_failFrame (f : BusFail) (p : Prim) (s : State) : advance (failFrame f p s) = failFrame f p (advance s) := by
  simp only [failFrame, advance_tn, advance_fi]
  split <;> rfl

theorem frameOf_advance (i : Instr) (s : State) : frameOf i (advance s) = frameOf i s := frameOf_congr i rfl rfl rfl rfl rfl

/-- Two answers are the same once the environment has moved on where their states are. -/
theorem advanced_next_congr {s t : State} (h : advance s = advance t) :
    advanced (.next s) = advanced (.next t) := by
  rw [advanced, advanced, h]

/-- A command without a frame reads of the input ports only `alert_in` (R116). -/
theorem advanced_exec_congr_of_no_frame {i : Instr} {s t : State} (hadv : advance s = advance t)
    (halert : s.now.alertIn = t.now.alertIn) (hF : frameOf i s = none) : advanced (exec i s) = advanced (exec i t) := by
  have hphase : s.phase = t.phase := (congrArg State.phase hadv :)
  have himm (f g : State → State) (hfg : advance (f s) = advance (g t)) : advanced (immediate f s) = advanced (immediate g t) := by
    rw [immediate, immediate, ← hphase]
    split
    · exact advanced_next_congr hfg
    all_goals rfl
  have hres (r : Word) : advance (complete r s) = advance (complete r t) := by rw [advance_complete, advance_complete, hadv]
  cases i
  case setLimit which =>
    have hsel : limitReg which = none := by simpa [frameOf] using hF
    obtain rfl := (limitReg_eq_none_iff which).mp hsel
    exact advanced_next_congr (by rw [advance_raiseError, advance_raiseError, hadv])
  case decodeTemp raw => exact himm _ _ (hres _)
  case decodeStatus raw => exact himm _ _ (hres _)
  case encodeLimit =>
    have hx : s.curX = t.curX := (congrArg State.curX hadv :)
    have hcfg : s.cfg = t.cfg := (congrArg State.cfg hadv :)
    exact himm _ _ (by rw [hx, hcfg]; exact hres _)
  case init a =>
    have hsla : advance { s with sla := a } = advance { t with sla := a } := (congrArg (fun u : State => { u with sla := a }) hadv :)
    exact himm (fun u => complete 0#32 { u with sla := a }) (fun u => complete 0#32 { u with sla := a })
      (by simp only [advance_complete, hsla])
  case getAlertPin => exact himm _ _ (by rw [halert]; exact hres _)
  case getAlertStatus =>
    have hstat : s.stat = t.stat := (congrArg State.stat hadv :)
    have hstatV : s.statV = t.statV := (congrArg State.statV hadv :)
    exact himm _ _ (by rw [hstat, hstatV]; exact hres _)
  all_goals simp [frameOf] at hF

section
variable {i : Instr} {s t : State} {F : List Slot}

/-- A step of a frame reads of the input ports only BUS's answer. -/
theorem advanced_exec_run_congr (hadv : advance s = advance t) (hbus : s.now.busRsp = t.now.busRsp) (hrun : s.phase = .run)
    (hF : frameOf i s = some F) : advanced (exec i s) = advanced (exec i t) := by
  have hrun' : t.phase = .run := (congrArg State.phase hadv :) ▸ hrun
  have hF' : frameOf i t = some F := by rw [← frameOf_advance, ← hadv, frameOf_advance, hF]
  have hfi : s.fi = t.fi := (congrArg State.fi hadv :)
  cases hc : F[s.fi.toNat]? with
  | none =>
    have hc' : F[t.fi.toNat]? = none := hfi ▸ hc
    rw [exec_run_of_frame hrun hF, exec_run_of_frame hrun' hF', frameStep, frameStep, hc, hc']
  | some c =>
    have hc' : F[t.fi.toNat]? = some c := hfi ▸ hc
    cases hd : s.now.busRsp with
    | none =>
      rw [exec_run_of_unanswered hrun hF hc hd, exec_run_of_unanswered hrun' hF' hc' (hbus ▸ hd)]
      exact advanced_next_congr hadv
    | some d =>
      have hd' : t.now.busRsp = some d := hbus ▸ hd
      cases hacc : accepted (answerTo c.prim d) with
      | true =>
        rw [exec_run_of_accepted hrun hF hc hd hacc, exec_run_of_accepted hrun' hF' hc' hd' hacc, ← hfi]
        refine advanced_next_congr ?_
        split <;> simp only [advance_afterFrame, advance_passPlace, hadv]
      | false =>
        rw [exec_run_of_refused hrun hF hc hd hacc, exec_run_of_refused hrun' hF' hc' hd' hacc]
        exact advanced_next_congr (by simp only [advance_failFrame, advance_emit, hadv])

/-- The abort step reads of the input ports only BUS's answer. -/
theorem advanced_abortStep_congr (hadv : advance s = advance t) (hbus : s.now.busRsp = t.now.busRsp) :
    advanced (abortStep s) = advanced (abortStep t) := by
  have hpend : s.pend = t.pend := (congrArg State.pend hadv :)
  have htn : s.tn = t.tn := (congrArg State.tn hadv :)
  have hfi : s.fi = t.fi := (congrArg State.fi hadv :)
  rw [abortStep, abortStep, ← hpend, ← hbus]
  split
  · rfl
  · split
    · exact advanced_next_congr hadv
    · exact advanced_next_congr (by simp only [advance_raiseError, advance_emit, hadv, htn, hfi])

/-- A command's step reads of the input ports only BUS's answer, `alert_in`, and in SETTLE whether TIMER answers this wait: two states
that are the same once the environment has moved on make the same step where these agree. -/
theorem advanced_exec_congr (hadv : advance s = advance t) (hbus : s.now.busRsp = t.now.busRsp)
    (halert : s.now.alertIn = t.now.alertIn) (hsettle : s.phase = .settle → settleAnswered s = settleAnswered t) :
    advanced (exec i s) = advanced (exec i t) := by
  have hphase : s.phase = t.phase := (congrArg State.phase hadv :)
  cases hF : frameOf i s with
  | none => exact advanced_exec_congr_of_no_frame hadv halert hF
  | some F =>
    have hF' : frameOf i t = some F := by rw [← frameOf_advance, ← hadv, frameOf_advance, hF]
    cases hp : s.phase with
    | idle =>
      rw [exec_idle_of_frame hp hF, exec_idle_of_frame (hphase ▸ hp) hF']
      split
      · exact advanced_next_congr (by rw [advance_startFrame, advance_startFrame, hadv])
      · exact advanced_next_congr (by rw [advance_raiseError, advance_raiseError, hadv])
    | run => exact advanced_exec_run_congr hadv hbus hp hF
    | abort =>
      rw [exec_abort_eq_abortStep hp hF, exec_abort_eq_abortStep (hphase ▸ hp) hF']
      exact advanced_abortStep_congr hadv hbus
    | settle =>
      rw [exec_settle_of_frame hp hF, exec_settle_of_frame (hphase ▸ hp) hF', settleStep_eq, settleStep_eq, hsettle hp]
      split
      · exact advanced_next_congr (by split <;> simp only [advance_respond, hadv])
      · rfl

end

/-- The latches of an acceptance, by the word and the operand on the command port. -/
theorem advance_accept (s : State) :
    advance (accept s) = { advance s with
      curCw := s.now.cmdWord, curX := s.now.cmdX, err := 0#3, errInfo := 0#8, fi := 0#4, tn := 0#1 } := rfl

/-- A step reads `rst`, in IDLE the command port, and what a command's step reads; nothing else of the input ports. -/
theorem step_congr {s t : State} (hadv : advance s = advance t) (hrst : s.now.rst = t.now.rst)
    (hport : s.phase = .idle →
      s.now.cmdValid = t.now.cmdValid ∧ s.now.cmdWord = t.now.cmdWord ∧ s.now.cmdX = t.now.cmdX)
    (hbus : s.now.busRsp = t.now.busRsp) (halert : s.now.alertIn = t.now.alertIn)
    (hsettle : s.phase = .settle → settleAnswered s = settleAnswered t) : step s = step t := by
  have hphase : s.phase = t.phase := (congrArg State.phase hadv :)
  cases hr : s.now.rst with
  | true =>
    have hreset : advance (resetBlock s) = advance (resetBlock t) := (congrArg resetBlock hadv :)
    rw [step, step, if_pos hr, if_pos (hrst ▸ hr), hreset]
  | false =>
    have hr' : t.now.rst = false := hrst ▸ hr
    by_cases hidle : s.phase = .idle
    · have hidle' : t.phase = .idle := hphase ▸ hidle
      obtain ⟨hvalid, hword, hx⟩ := hport hidle
      have haccept : advance (accept s) = advance (accept t) := by
        rw [advance_accept, advance_accept, hadv, hword, hx]
      cases hv : s.now.cmdValid with
      | false => rw [step_of_waiting hidle hr hv, step_of_waiting hidle' hr' (hvalid ▸ hv), hadv]
      | true =>
        rw [step_of_accepting hidle hr hv, step_of_accepting hidle' hr' (hvalid ▸ hv), runAccepted, runAccepted,
          accept_curCw, accept_curCw, ← hword]
        split
        · exact advanced_exec_congr haccept hbus halert (fun h => absurd (hidle.symm.trans h) (by simp))
        · exact advanced_next_congr (by rw [advance_raiseError, advance_raiseError, haccept])
    · have hcw : s.curCw = t.curCw := (congrArg State.curCw hadv :)
      rw [step_of_busy hidle hr, step_of_busy (hphase ▸ hidle) hr', runLatched, runLatched, ← hcw]
      split
      · exact advanced_exec_congr hadv hbus halert hsettle
      · rfl

/-- Settles O20: a busy block does not read the command port. -/
theorem commandPortHasNoEffectWhileBusy : Obligations.CommandPortHasNoEffectWhileBusy := by
  intro s c rest v w x hbusy
  exact step_congr rfl rfl (fun h => absurd h hbusy) rfl rfl (fun _ => rfl)

/-! ### Settle waits -/

/-- A settle wait begins exactly with a `settle_start`, and SETTLE is entered only so. -/
theorem execStep_settleWaits {i : Instr} {s t : State} (h : ExecStep i s t) :
    (t.settleWaits = s.settleWaits ∧ t.out.countP isSettleStart = s.out.countP isSettleStart ∧
      (t.phase = .settle → s.phase = .settle)) ∨
    (t.settleWaits = s.settleWaits + 1 ∧ t.out.countP isSettleStart = s.out.countP isSettleStart + 1) := by
  cases h with
  | pass F c d hrun => exact .inl (by simp [hrun, isSettleStart])
  | finish F c d hrun hF =>
    rcases afterFrame_cases (u := passPlace c d s) hF (by simp) with ⟨r, hr⟩ | ⟨-, r, hr⟩ | ⟨-, -, hr⟩ | ⟨-, -, r, hr⟩
    · exact .inl (by simp [hr, isSettleStart])
    · exact .inl (by simp [hr, isSettleStart])
    · exact .inl (by simp [hr, isSettleStart])
    · exact .inr (by simp [hr, List.countP_cons, isSettleStart])
  | _ => exact .inl (by simp [isSettleStart])

/-- What a step does to the count of settle waits. -/
theorem step_settleWaits {s t : State} (h : step s = .next t) :
    (t.settleWaits = s.settleWaits ∧ t.out.countP isSettleStart = s.out.countP isSettleStart ∧
      (t.phase = .settle → s.phase = .settle)) ∨
    (t.settleWaits = s.settleWaits + 1 ∧ t.out.countP isSettleStart = s.out.countP isSettleStart + 1) := by
  rcases step_cases h with ⟨-, rfl⟩ | ⟨-, u, hblock, rfl⟩
  · exact .inl ⟨rfl, rfl, fun h => by simp [State.reset] at h⟩
  · rw [advance_settleWaits, advance_out, advance_phase]
    rcases blockStep_cases hblock with ⟨-, -, rfl⟩ | ⟨-, -, i, -, hexec⟩ | ⟨-, -, -, rfl⟩ | ⟨-, i, -, hexec⟩
    · exact .inl ⟨rfl, rfl, id⟩
    · exact execStep_settleWaits (s := accept s) (execStep_of_exec hexec)
    · exact .inl (by simp [isSettleStart])
    · exact execStep_settleWaits (execStep_of_exec hexec)

/-- The settle wait of number `n` is over or abandoned: it has begun, and a wait in progress is a later one. -/
def waitIsPast (n : Nat) (s : State) : Prop := n ≤ s.settleWaits ∧ (s.phase = .settle → n < s.settleWaits)

/-- A wait that is past stays so. -/
theorem waitIsPast_step {n : Nat} {s t : State} (hpast : waitIsPast n s) (h : step s = .next t) : waitIsPast n t := by
  obtain ⟨hbegun, hlater⟩ := hpast
  rcases step_settleWaits h with ⟨hsame, -, hphase⟩ | ⟨hnext, -⟩
  · exact ⟨hsame ▸ hbegun, fun hp => hsame ▸ hlater (hphase hp)⟩
  · exact ⟨by omega, fun _ => by omega⟩

/-- A run goes on from where its first step leads. -/
theorem runSteps_of_step {k : Nat} {s u : State} (h : step s = .next u) : runSteps (k + 1) s = runSteps k u := by
  rw [runSteps, h]

/-- What every step keeps holds at the end of every run. -/
theorem runSteps_keeps {P : State → Prop} (hstep : ∀ {s t : State}, P s → step s = .next t → P t) :
    ∀ (k : Nat) {s t : State}, P s → runSteps k s = .next t → P t := by
  intro k
  induction k with
  | zero =>
    intro s t hs h
    cases h
    exact hs
  | succ k ih =>
    intro s t hs h
    unfold runSteps at h
    split at h
    · exact ih (hstep hs ‹_›) h
    all_goals cases h

/-- Settles O59: the count of `settle_start` events is the count of waits; after a reset every wait begun before it is past, and stays
past along the run, so its answer ends no wait. -/
theorem lateSettleDoneIsIgnored : Obligations.LateSettleDoneIsIgnored := by
  refine ⟨fun s t h => ?_, fun s t k n c rest hrst hn h => ?_⟩
  · rcases step_settleWaits h with ⟨hsame, hcount, -⟩ | ⟨hnext, hcount⟩ <;> omega
  · have hreset : step s = .next (advance (resetBlock s)) := if_pos hrst
    have hpast : waitIsPast n t := by
      rw [runSteps_of_step hreset] at h
      have hstart : waitIsPast n (advance (resetBlock s)) := ⟨hn, fun hp => absurd hp (by simp [State.reset])⟩
      exact runSteps_keeps waitIsPast_step k hstart h
    refine step_congr rfl rfl (fun _ => ⟨rfl, rfl, rfl⟩) rfl rfl fun hsettle => ?_
    have hother : n ≠ t.settleWaits := Nat.ne_of_lt (hpast.2 hsettle)
    simp [settleAnswered, State.now, hother]

end Sys2Proof.Machine
end

section
/-! PROOFS. The step at which each command with a frame completes: the final STOP answered OK, and TIMER's answer to the settle wait
(41_transactions.md R95 to R103, 42_operations.md R111 to R129). -/

namespace Sys2Proof.Machine

/-! ### The final STOP -/

/-- At the final STOP answered OK, the exchange is recorded, `FI` reaches the frame's length, and `afterFrame` follows. -/
theorem exec_at_final_stop {i : Instr} {s : State} {F : List Slot} {d : BusDraw} (hrun : s.phase = .run)
    (hF : frameOf i s = some F) (hlast : s.fi.toNat + 1 = F.length) (hbus : s.now.busRsp = some d) (hok : d.timeout = false) :
    exec i s = .next (afterFrame i { s with fi := s.fi + 1#4, out := .bus .stop .ok :: s.out }) := by
  have hc : F[s.fi.toNat]? = some F[s.fi.toNat] := List.getElem?_eq_getElem (by omega)
  have hstop : F[s.fi.toNat].prim = .stop := (frameOf_stop_iff_last hF hc).mpr hlast
  have hans : answerTo F[s.fi.toNat].prim d = .ok := by simp [hstop, answerTo, hok]
  have hdest : F[s.fi.toNat].dest = none := by
    by_contra hd
    obtain ⟨k, hk⟩ := frameOf_dest hF (List.mem_of_getElem? hc) hd
    simp [hstop] at hk
  rw [exec_run_of_accepted hrun hF hc hbus (by rw [hans]; rfl), if_pos hlast, passPlace_eq]
  simp only [hdest, hstop, answerTo, hok, reduceCtorEq, if_false, Bool.false_eq_true]

/-- The byte of SET_RESOLUTION extended is the code extended (R112). -/
theorem zext32_resolutionByte (code : BitVec 2) : zext32 (resolutionByte code) = code.setWidth 32 :=
  BitVec.setWidth_setWidth (by decide)

/-- The limit register of each legal selector (R113). -/
theorem limitReg_of_ne_three (which : BitVec 2) (h : which ≠ 3#2) :
    limitReg which = some (if which = 0#2 then 0x02#8 else if which = 1#2 then 0x03#8 else 0x04#8) := by
  decide +revert

/-- SET_LIMIT with a legal selector writes the word of its operand to the limit register (R113). -/
theorem frameOf_setLimit {which : BitVec 2} (hsel : which ≠ 3#2) (s : State) :
    frameOf (.setLimit which) s =
      some (frameW16 s.sla (if which = 0#2 then 0x02#8 else if which = 1#2 then 0x03#8 else 0x04#8)
        (encodeLimit s.cfg.limitRounding s.curX)) := by
  rw [frameOf, limitReg_of_ne_three which hsel, Option.map_some]

/-- Settles O32: five commands of one write frame. -/
theorem writeCommandsCompleteAtTheFinalStop : Obligations.WriteCommandsCompleteAtTheFinalStop := by
  intro s d hrun hbus hok done
  refine ⟨fun hfi reg v => ?_, fun hfi reg b => ?_, fun hfi code => ?_, fun hfi which hsel => ?_, fun hfi hyst mode => ?_⟩
  · rw [exec_at_final_stop hrun rfl (by rw [hfi]; rfl) hbus hok, hfi]
    rfl
  · rw [exec_at_final_stop hrun rfl (by rw [hfi]; rfl) hbus hok, hfi]
    rfl
  · rw [exec_at_final_stop hrun rfl (by rw [hfi]; rfl) hbus hok, hfi, afterFrame, zext32_resolutionByte]
    rfl
  · rw [exec_at_final_stop hrun (frameOf_setLimit hsel s) (by rw [hfi]; rfl) hbus hok, hfi]
    rfl
  · rw [exec_at_final_stop hrun rfl (by rw [hfi]; rfl) hbus hok, hfi]
    rfl

/-- Settles O33: four commands of one read frame. -/
theorem readCommandsCompleteAtTheFinalStop : Obligations.ReadCommandsCompleteAtTheFinalStop := by
  intro s d hrun hbus hok done
  refine ⟨fun hfi reg => ?_, fun hfi reg => ?_, fun hfi => ?_, fun hfi => ?_⟩
  all_goals
    rw [exec_at_final_stop hrun rfl (by rw [hfi]; rfl) hbus hok, hfi]
    rfl

/-- Settles O34: the reading of the bytes received, decoded, and its flags in the cache. -/
theorem getTemperatureRefreshesTheStatusCache : Obligations.GetTemperatureRefreshesTheStatusCache := by
  intro s d hrun hfi hbus hok raw
  refine ⟨tempResult (decodeTemp raw), ?_, tempResult_decodeTemp_fields raw⟩
  rw [exec_at_final_stop hrun rfl (by rw [hfi]; rfl) hbus hok, hfi, ← statusFlags_eq]
  rfl

/-! ### Read-modify-write -/

/-- In its first transaction an RMW command runs the read frame of CONFIG (R121). -/
theorem frameOf_rmw_read {i : Instr} {s : State} (hrmw : isRmw i = true) (htn : s.tn = 0#1) :
    frameOf i s = some (frameR16 s.sla regConfig) := by
  cases i
  case sleep | wakeup | tcritLock | tcritUnlock | windowLock | windowUnlock => exact congrArg some (if_pos htn)
  all_goals cases hrmw

/-- After the read the write starts (R121). -/
theorem afterFrame_rmw_read {i : Instr} {u : State} (hrmw : isRmw i = true) (htn : u.tn = 0#1) :
    afterFrame i u = startWrite u := by
  cases i
  case sleep | wakeup | tcritLock | tcritUnlock | windowLock | windowUnlock => exact afterRmw_of_read htn
  all_goals cases hrmw

/-- The command `i` is the read-modify-write of CONFIG by `f`, followed by `done` (R121). -/
def IsRmwOf (i : Instr) (f : Half → Half) (done : State → State) : Prop :=
  isRmw i = true ∧ (∀ s, frameOf i s = some (frameOf.rmwFrame f s)) ∧ ∀ u, afterFrame i u = afterFrame.afterRmw f done u

theorem isRmwOf_sleep : IsRmwOf .sleep setSleep startSettle := ⟨rfl, fun _ => rfl, fun _ => rfl⟩

theorem isRmwOf_wakeup : IsRmwOf .wakeup clearSleep startSettle := ⟨rfl, fun _ => rfl, fun _ => rfl⟩

theorem isRmwOf_tcritLock : IsRmwOf .tcritLock setTcritLock respond := ⟨rfl, fun _ => rfl, fun _ => rfl⟩

theorem isRmwOf_tcritUnlock : IsRmwOf .tcritUnlock clearTcritLock respond := ⟨rfl, fun _ => rfl, fun _ => rfl⟩

theorem isRmwOf_windowLock : IsRmwOf .windowLock setWindowLock respond := ⟨rfl, fun _ => rfl, fun _ => rfl⟩

theorem isRmwOf_windowUnlock : IsRmwOf .windowUnlock clearWindowLock respond := ⟨rfl, fun _ => rfl, fun _ => rfl⟩

/-- In its second transaction an RMW command writes the value held, changed (R121). -/
theorem frameOf_rmw_write {i : Instr} {f : Half → Half} {done : State → State} (hi : IsRmwOf i f done) {s : State}
    (htn : s.tn = 1#1) : frameOf i s = some (frameW16 s.sla regConfig (f s.hold)) := by
  obtain ⟨-, hF, -⟩ := hi
  rw [hF, frameOf.rmwFrame, if_neg (by simp [htn])]

/-- After the write `RES` is the value written, and `done` follows (R121). -/
theorem afterFrame_rmw_write {i : Instr} {f : Half → Half} {done : State → State} (hi : IsRmwOf i f done) {u : State}
    (htn : u.tn = 1#1) : afterFrame i u = done { u with res := zext32 (f u.hold) } := by
  obtain ⟨-, -, hafter⟩ := hi
  rw [hafter, afterRmw_of_write (by simp [htn])]

/-- Settles O35: the end of the read frame of any RMW command. -/
theorem rmwReadStartsTheWrite : Obligations.RmwReadStartsTheWrite := by
  intro i s d hrmw hrun htn hfi hbus hok
  rw [exec_at_final_stop hrun (frameOf_rmw_read hrmw htn) (by rw [hfi]; rfl) hbus hok,
    afterFrame_rmw_read (u := { s with fi := s.fi + 1#4, out := .bus .stop .ok :: s.out }) hrmw htn]
  rw [hrun]
  rfl

/-- The write of an RMW command at its final STOP. -/
theorem exec_rmw_at_final_stop {i : Instr} {f : Half → Half} {done : State → State} (hi : IsRmwOf i f done) {s : State}
    {d : BusDraw} (hrun : s.phase = .run) (htn : s.tn = 1#1) (hfi : s.fi = 5#4) (hbus : s.now.busRsp = some d)
    (hok : d.timeout = false) :
    exec i s = .next (done { s with fi := 6#4, out := .bus .stop .ok :: s.out, res := zext32 (f s.hold) }) := by
  rw [exec_at_final_stop hrun (frameOf_rmw_write hi htn) (by rw [hfi]; rfl) hbus hok, hfi,
    afterFrame_rmw_write hi (u := { s with fi := 5#4 + 1#4, out := .bus .stop .ok :: s.out }) htn]
  rfl

/-- Settles O36: the lock commands respond after the write. -/
theorem lockCommandsCompleteAtTheFinalStop : Obligations.LockCommandsCompleteAtTheFinalStop := by
  intro s d hrun htn hfi hbus hok done
  exact ⟨exec_rmw_at_final_stop isRmwOf_tcritLock hrun htn hfi hbus hok,
    exec_rmw_at_final_stop isRmwOf_tcritUnlock hrun htn hfi hbus hok,
    exec_rmw_at_final_stop isRmwOf_windowLock hrun htn hfi hbus hok,
    exec_rmw_at_final_stop isRmwOf_windowUnlock hrun htn hfi hbus hok⟩

/-- Settles O37: SLEEP and WAKEUP start their settle wait after the write. -/
theorem powerCommandsStartTheSettleWait : Obligations.PowerCommandsStartTheSettleWait := by
  intro s d hrun htn hfi hbus hok waiting
  exact ⟨exec_rmw_at_final_stop isRmwOf_sleep hrun htn hfi hbus hok,
    exec_rmw_at_final_stop isRmwOf_wakeup hrun htn hfi hbus hok⟩

/-! ### The settle wait -/

/-- In SETTLE a power command makes the step of the wait (R120). -/
theorem exec_settle_of_isPower {i : Instr} {s : State} (hpower : isPower i = true) (hsettle : s.phase = .settle) :
    exec i s = settleStep s := by
  obtain ⟨F, hF⟩ := frameOf_isSome_of_isRmw (isRmw_of_isPower hpower) s
  rw [exec_settle_of_frame hsettle hF, if_pos hpower]

/-- Settles O38: both commands make the step of the wait. -/
theorem settleDoneCompletesThePowerCommand : Obligations.SettleDoneCompletesThePowerCommand := by
  intro s hsettle after
  have hafter : settleStep s = .next after := by
    rw [settleStep_eq]
    refine congrArg Host.Outcome.next ?_
    by_cases h : s.now.settleDone = some s.settleWaits
    · rw [if_pos (settleAnswered_iff.mpr h)]
      exact (if_pos h).symm
    · rw [if_neg (mt settleAnswered_iff.mp h)]
      exact (if_neg h).symm
  exact ⟨(exec_settle_of_isPower rfl hsettle).trans hafter, (exec_settle_of_isPower rfl hsettle).trans hafter⟩

end Sys2Proof.Machine
end

section
/-! PROOFS. Whole runs: the places of a frame one after the other, a frame that completes, a frame that fails (41_transactions.md R93,
R94, 60_exceptions.md R144), and a command from its acceptance to its response. -/

namespace Sys2Proof.Machine

/-! ### Runs of steps -/

/-- A run is a run and then a run from where it leads. -/
theorem runSteps_add {m : Nat} (n : Nat) : ∀ {s u : State}, runSteps m s = .next u → runSteps (m + n) s = runSteps n u := by
  induction m with
  | zero =>
    intro s u h
    cases h
    rw [Nat.zero_add]
  | succ m ih =>
    intro s u h
    cases hstep : step s with
    | next t =>
      rw [runSteps_of_step hstep] at h
      rw [Nat.succ_add, runSteps_of_step hstep, ih h]
    | fault r => simp [runSteps, hstep] at h
    | refused r => simp [runSteps, hstep] at h

/-- A run of one step more. -/
theorem runSteps_succ {m : Nat} {s u v : State} (h : runSteps m s = .next u) (hstep : step u = .next v) :
    runSteps (m + 1) s = .next v := by
  rw [runSteps_add 1 h, runSteps_of_step hstep, runSteps]

/-- A step of a command in progress, without reset. -/
theorem step_of_exec {i : Instr} {s t : State} {x : Inputs} {rest : List Inputs} (hbusy : s.phase ≠ .idle)
    (hdec : decode s.curCw = .ok i) (hin : s.inputs = x :: rest) (hrst : x.rst = false) (hexec : exec i s = .next t) :
    step s = .next (advance t) := by
  have hrst' : s.now.rst = false := by rw [now_cons hin, hrst]
  rw [step_of_busy hbusy hrst', runLatched_of_decode hdec, hexec, advanced]

/-! ### What BUS serves -/

/-- BUS serves a primitive with an answer that lets it pass. -/
theorem servesOne_iff (p : Prim) (x : Inputs) :
    servesOne p x = true ↔ x.rst = false ∧ x.busRsp = some (drawAt x) ∧ accepted (answerTo p (drawAt x)) = true := by
  cases h : x.busRsp <;> simp [servesOne, drawAt, h]

/-- BUS serves one primitive at each step. -/
theorem serves_length {ps : List Prim} {ins : List Inputs} (h : serves ps ins = true) : ins.length = ps.length := by
  induction ps generalizing ins with
  | nil => cases ins <;> simp_all [serves]
  | cons p ps ih =>
    cases ins with
    | nil => simp [serves] at h
    | cons x ins =>
      simp only [serves, Bool.and_eq_true] at h
      simp [ih h.2]

/-- The last of the primitives served is served at the last step. -/
theorem serves_concat {ps : List Prim} {p : Prim} {ins : List Inputs} (h : serves (ps ++ [p]) ins = true) :
    ∃ before x, ins = before ++ [x] ∧ serves ps before = true ∧ servesOne p x = true := by
  induction ps generalizing ins with
  | nil =>
    match ins with
    | [] => simp [serves] at h
    | x :: tail =>
      simp only [List.nil_append, serves, Bool.and_eq_true] at h
      obtain rfl : tail = [] := List.length_eq_zero_iff.mp (serves_length h.2)
      exact ⟨[], x, rfl, rfl, h.1⟩
  | cons q ps ih =>
    match ins with
    | [] => simp [serves] at h
    | y :: tail =>
      simp only [List.cons_append, serves, Bool.and_eq_true] at h
      obtain ⟨before, x, rfl, hpassed, hx⟩ := ih h.2
      exact ⟨y :: before, x, rfl, by simp [serves, h.1, hpassed], hx⟩

/-- The exchanges of one primitive more. -/
theorem exchanges_concat {ps : List Prim} {ins : List Inputs} (p : Prim) (x : Inputs) (hlen : ins.length = ps.length) :
    exchanges (ps ++ [p]) (ins ++ [x]) = .bus p (answerTo p (drawAt x)) :: exchanges ps ins := by
  simp [exchanges, List.zipWith_append hlen.symm]

/-! ### The places of a frame -/

/-- The byte in the receive register `r` after the places `cs`: that of the last place that stores into it, and `b` where none does. -/
def received (r : RxReg) (cs : List Slot) (ins : List Inputs) (b : Byte) : Byte :=
  (cs.zip ins).foldl (fun b' p => if p.1.dest = some r then (drawAt p.2).data else b') b

/-- The block after the places `cs` of a frame that BUS has let pass, with `rest` ahead on the input ports. -/
def afterPlaces (cs : List Slot) (ins rest : List Inputs) (s : State) : State :=
  { s with
    fi := BitVec.ofNat 4 cs.length,
    rxh := received .rxh cs ins s.rxh,
    rxl := received .rxl cs ins s.rxl,
    inputs := rest,
    out := exchanges (cs.map Slot.prim) ins ++ s.out }

theorem received_concat (r : RxReg) {cs : List Slot} {ins : List Inputs} (c : Slot) (x : Inputs) (b : Byte)
    (hlen : ins.length = cs.length) :
    received r (cs ++ [c]) (ins ++ [x]) b = if c.dest = some r then (drawAt x).data else received r cs ins b := by
  simp [received, List.zip_append hlen.symm]

/-- One place more. -/
theorem afterPlaces_concat {cs : List Slot} {ins : List Inputs} (c : Slot) (x : Inputs) (rest : List Inputs) (s : State)
    (hlen : ins.length = cs.length) :
    afterPlaces (cs ++ [c]) (ins ++ [x]) rest s = advance (passPlace c (drawAt x) (afterPlaces cs ins (x :: rest) s)) := by
  have hprims : ins.length = (cs.map Slot.prim).length := by rw [hlen, List.length_map]
  rw [passPlace_eq, afterPlaces, afterPlaces, received_concat _ _ _ _ hlen, received_concat _ _ _ _ hlen, List.map_append,
    List.map_singleton, exchanges_concat _ _ hprims, List.length_append, List.length_singleton, BitVec.ofNat_add]
  rfl

@[simp] theorem afterPlaces_phase (cs : List Slot) (ins rest : List Inputs) (s : State) :
    (afterPlaces cs ins rest s).phase = s.phase := rfl
@[simp] theorem afterPlaces_fi (cs : List Slot) (ins rest : List Inputs) (s : State) :
    (afterPlaces cs ins rest s).fi = BitVec.ofNat 4 cs.length := rfl
@[simp] theorem frameOf_afterPlaces (i : Instr) (cs : List Slot) (ins rest : List Inputs) (s : State) :
    frameOf i (afterPlaces cs ins rest s) = frameOf i s := frameOf_congr i rfl rfl rfl rfl rfl

/-- Places that store into no register leave both. -/
theorem received_of_no_dest (r : RxReg) {cs : List Slot} (h : ∀ c ∈ cs, c.dest = none) (ins : List Inputs) (b : Byte) :
    received r cs ins b = b := by
  induction cs generalizing ins with
  | nil => rfl
  | cons c cs ih =>
    cases ins with
    | nil => rfl
    | cons x ins =>
      have hc : c.dest ≠ some r := by simp [h c (by simp)]
      have hrest := ih (fun c hc => h c (List.mem_cons_of_mem _ hc)) ins
      simpa [received, hc] using hrest

/-- The places up to and with the next one. -/
theorem take_succ_of_place {F : List Slot} {k : Nat} {c : Slot} (hc : F[k]? = some c) : F.take (k + 1) = F.take k ++ [c] := by
  rw [List.take_add_one, hc]
  rfl

section
variable {i : Instr} {s : State} {F : List Slot}

/-- The step of one place of a frame, from the places before it. -/
theorem step_afterPlaces {k : Nat} {c : Slot} {ins rest : List Inputs} {x : Inputs} (hrun : s.phase = .run)
    (hdec : decode s.curCw = .ok i) (hF : frameOf i s = some F) (hc : F[k]? = some c)
    (hlen : ins.length = (F.take k).length) (hx : servesOne c.prim x = true) :
    step (afterPlaces (F.take k) ins (x :: rest) s) = .next
      (if k + 1 = F.length then afterFrame i (afterPlaces (F.take (k + 1)) (ins ++ [x]) rest s)
        else afterPlaces (F.take (k + 1)) (ins ++ [x]) rest s) := by
  obtain ⟨hrst, hbus, hacc⟩ := (servesOne_iff c.prim x).mp hx
  have hlt : k < F.length := (List.getElem?_eq_some_iff.mp hc).1
  have hfi : (afterPlaces (F.take k) ins (x :: rest) s).fi.toNat = k := by
    have := frameOf_length_le hF
    simp [Nat.min_eq_left hlt.le]
    omega
  have hexec := exec_run_of_accepted (i := i) (s := afterPlaces (F.take k) ins (x :: rest) s) (d := drawAt x) hrun
    ((frameOf_afterPlaces ..).trans hF) (by rw [hfi, hc]) (by rw [now_cons rfl]; exact hbus) hacc
  rw [step_of_exec (s := afterPlaces (F.take k) ins (x :: rest) s) (by simp [hrun]) hdec rfl hrst hexec, hfi,
    take_succ_of_place hc, afterPlaces_concat c x rest s hlen]
  split
  · rw [advance_afterFrame]
  · rfl

/-- The places of a frame before its last, one at each step. -/
theorem runSteps_places (hrun : s.phase = .run) (hfi : s.fi = 0#4) (hdec : decode s.curCw = .ok i) (hF : frameOf i s = some F)
    {k : Nat} (hk : k < F.length) {ins rest : List Inputs} (hserves : serves ((F.take k).map Slot.prim) ins = true)
    (hin : s.inputs = ins ++ rest) : runSteps k s = .next (afterPlaces (F.take k) ins rest s) := by
  induction k generalizing ins rest with
  | zero =>
    obtain rfl : ins = [] := List.length_eq_zero_iff.mp (by simpa using serves_length hserves)
    have hstart : afterPlaces [] [] s.inputs s = { s with fi := 0#4 } := rfl
    rw [List.nil_append] at hin
    rw [runSteps, List.take_zero, ← hin, hstart, ← hfi]
  | succ k ih =>
    have hc : F[k]? = some F[k] := List.getElem?_eq_getElem (by omega)
    rw [take_succ_of_place hc, List.map_append, List.map_singleton] at hserves
    obtain ⟨before, x, rfl, hpassed, hx⟩ := serves_concat hserves
    have hbefore := ih (by omega) hpassed (rest := x :: rest) (by rw [hin, List.append_assoc]; rfl)
    have hlen : before.length = (F.take k).length := by rw [serves_length hpassed, List.length_map]
    have hstep := step_afterPlaces (rest := rest) hrun hdec hF hc hlen hx
    rw [if_neg (by omega)] at hstep
    exact runSteps_succ hbefore hstep

/-- A frame whose primitives BUS lets pass completes: one step for each place, and `afterFrame` follows the last. -/
theorem runSteps_frame (hrun : s.phase = .run) (hfi : s.fi = 0#4) (hdec : decode s.curCw = .ok i) (hF : frameOf i s = some F)
    {ins rest : List Inputs} (hserves : serves (F.map Slot.prim) ins = true) (hin : s.inputs = ins ++ rest) :
    runSteps F.length s = .next (afterFrame i (afterPlaces F ins rest s)) := by
  have hpos : 0 < F.length := by
    rcases frameOf_cases hF with ⟨_, _, rfl⟩ | ⟨_, _, rfl⟩ | ⟨_, rfl⟩ | ⟨_, rfl⟩ <;> exact Nat.succ_pos _
  obtain ⟨k, hk⟩ := Nat.exists_eq_add_one.mpr hpos
  have hc : F[k]? = some F[k] := List.getElem?_eq_getElem (by omega)
  have hwhole : F.take k ++ [F[k]] = F := by rw [← take_succ_of_place hc, ← hk, List.take_length]
  rw [← hwhole, List.map_append, List.map_singleton] at hserves
  obtain ⟨before, x, rfl, hpassed, hx⟩ := serves_concat hserves
  have hbefore := runSteps_places hrun hfi hdec hF (k := k) (by omega) hpassed (rest := x :: rest)
    (by rw [hin, List.append_assoc]; rfl)
  have hlen : before.length = (F.take k).length := by rw [serves_length hpassed, List.length_map]
  have hstep := step_afterPlaces (rest := rest) hrun hdec hF hc hlen hx
  rw [if_pos hk.symm, ← hk, List.take_length] at hstep
  rw [hk]
  exact runSteps_succ hbefore hstep

end

/-! ### A frame that fails -/

section
variable {i : Instr} {u : State} {F : List Slot} {c : Slot} {bad : Inputs} {d : BusDraw}

/-- A final STOP that BUS refuses ends the command at that step. -/
theorem step_of_refused_stop {rest : List Inputs} (hrun : u.phase = .run) (hdec : decode u.curCw = .ok i)
    (hF : frameOf i u = some F) (hc : F[u.fi.toNat]? = some c) (hin : u.inputs = bad :: rest) (hrst : bad.rst = false)
    (hbus : bad.busRsp = some d) (hrefused : accepted (answerTo c.prim d) = false) (hstop : c.prim = .stop) :
    step u = .next
      (advance (raiseError (failKind (failOf (answerTo c.prim d))) (busErrInfo u.tn u.fi)
        (emit (.bus c.prim (answerTo c.prim d)) u))) := by
  have hexec := exec_run_of_refused hrun hF hc (by rw [now_cons hin, hbus]) hrefused
  rw [failFrame, if_pos hstop] at hexec
  exact step_of_exec (by simp [hrun]) hdec hin hrst hexec

/-- Any other primitive that BUS refuses is followed by one abort STOP, and the command ends at its answer. -/
theorem runSteps_of_refused {z : Inputs} {rest : List Inputs} {e : BusDraw} (hrun : u.phase = .run)
    (hdec : decode u.curCw = .ok i) (hF : frameOf i u = some F) (hc : F[u.fi.toNat]? = some c)
    (hin : u.inputs = bad :: z :: rest) (hrst : bad.rst = false) (hbus : bad.busRsp = some d)
    (hrefused : accepted (answerTo c.prim d) = false) (hstop : c.prim ≠ .stop) (hzrst : z.rst = false)
    (hzbus : z.busRsp = some e) :
    runSteps 2 u = .next
      (advance (raiseError (failKind (failOf (answerTo c.prim d))) (busErrInfo u.tn u.fi) (emit (.bus .stop (answerTo .stop e))
        (advance (enterAbort (failOf (answerTo c.prim d)) (emit (.bus c.prim (answerTo c.prim d)) u)))))) := by
  have hexec := exec_run_of_refused hrun hF hc (by rw [now_cons hin, hbus]) hrefused
  rw [failFrame, if_neg hstop] at hexec
  have hfail := step_of_exec (by simp [hrun]) hdec hin hrst hexec
  have hahead : (advance (enterAbort (failOf (answerTo c.prim d)) (emit (.bus c.prim (answerTo c.prim d)) u))).inputs =
      z :: rest := by simp [hin]
  have hframe : frameOf i (advance (enterAbort (failOf (answerTo c.prim d)) (emit (.bus c.prim (answerTo c.prim d)) u))) =
      some F := by rw [frameOf_advance, frameOf_enterAbort, frameOf_emit, hF]
  have habort := exec_abort_of_answered rfl hframe rfl (by rw [now_cons hahead, hzbus])
  exact runSteps_succ (runSteps_succ rfl hfail) (step_of_exec (by simp) hdec hahead hzrst habort)

end

/-- The registers and events after an abort: those of the refusal, the abort STOP and the error (R143, R144). -/
theorem aborted_eq (f : BusFail) (p : Prim) (a b : BusAnswer) (u : State) :
    advance (raiseError (failKind f) (busErrInfo u.tn u.fi)
      (emit (.bus .stop b) (advance (enterAbort f (emit (.bus p a) u))))) =
    { u with
      phase := .idle, pend := none, res := 0#32, err := errCode (failKind f), errInfo := busErrInfo u.tn u.fi,
      inputs := u.inputs.tail.tail,
      out := .rsp 0#32 (errCode (failKind f)) (busErrInfo u.tn u.fi) :: .bus .stop b :: .bus p a :: u.out } := rfl

/-- The registers and events after a refused final STOP (R143, R144). -/
theorem failedStop_eq (f : BusFail) (p : Prim) (a : BusAnswer) (u : State) :
    advance (raiseError (failKind f) (busErrInfo u.tn u.fi) (emit (.bus p a) u)) =
    { u with
      phase := .idle, pend := none, res := 0#32, err := errCode (failKind f), errInfo := busErrInfo u.tn u.fi,
      inputs := u.inputs.tail,
      out := .rsp 0#32 (errCode (failKind f)) (busErrInfo u.tn u.fi) :: .bus p a :: u.out } := rfl

/-- Settles O29: the places before the failure pass; the refused one raises at once where it is the STOP, and otherwise enters ABORT, from
which the abort STOP raises the error. -/
theorem failedFrameEndsItsCommand : Obligations.FailedFrameEndsItsCommand := by
  intro i s F k c ins rest bad z d e hrun hfi hpend hdec hF hc hserves hbrst hbbus hrefused code info seen
  have hk : k < F.length := (List.getElem?_eq_some_iff.mp hc).1
  have hlen : (F.take k).length = k := by simp [hk.le]
  have hcode : errCode (failKind (failOf (answerTo c.prim d))) = code := by
    rw [errCode_failKind]
    show _ = if answerTo c.prim d = .nack then 1#3 else 2#3
    unfold failOf
    split <;> rfl
  have hplace (tail : List Inputs) : F[(afterPlaces (F.take k) ins tail s).fi.toNat]? = some c := by
    have := frameOf_length_le hF
    rw [afterPlaces_fi, hlen, BitVec.toNat_ofNat, Nat.mod_eq_of_lt (by omega), hc]
  refine ⟨fun hstop hzrst hzbus hin => ?_, fun hstop hin => ?_⟩
  · have hbefore := runSteps_places hrun hfi hdec hF hk hserves hin
    have hfail := runSteps_of_refused (u := afterPlaces (F.take k) ins (bad :: z :: rest) s) hrun hdec
      ((frameOf_afterPlaces ..).trans hF) (hplace _) rfl hbrst hbbus hrefused hstop hzrst hzbus
    refine ⟨received .rxh (F.take k) ins s.rxh, received .rxl (F.take k) ins s.rxl, ?_⟩
    rw [aborted_eq, hcode, afterPlaces_fi, hlen] at hfail
    rw [runSteps_add 2 hbefore, hfail, hpend]
    rfl
  · have hbefore := runSteps_places hrun hfi hdec hF hk hserves hin
    have hfail := step_of_refused_stop (u := afterPlaces (F.take k) ins (bad :: rest) s) hrun hdec
      ((frameOf_afterPlaces ..).trans hF) (hplace _) rfl hbrst hbbus hrefused hstop
    refine ⟨received .rxh (F.take k) ins s.rxh, received .rxl (F.take k) ins s.rxl, ?_⟩
    rw [failedStop_eq, hcode, afterPlaces_fi, hlen] at hfail
    rw [runSteps_succ hbefore hfail, hpend]
    rfl

end Sys2Proof.Machine
end

section
/-! PROOFS. A command from its acceptance to its response, BUS letting its frames pass (41_transactions.md R100 to R103, 42_operations.md
R111 to R129). -/

namespace Sys2Proof.Machine

/-! ### From the acceptance to the end of a frame -/

/-- The block at the start of the frame of the command that `c` presented, with `rest` ahead on the input ports. -/
def started (c : Inputs) (rest : List Inputs) (s : State) : State :=
  { s with
    phase := .run, curCw := c.cmdWord, curX := c.cmdX, err := 0#3, errInfo := 0#8, fi := 0#4, tn := 0#1, inputs := rest }

/-- The step that accepts a command with a frame starts it. -/
theorem step_of_presented {i : Instr} {s : State} {c : Inputs} {rest : List Inputs} {F : List Slot} (hidle : s.phase = .idle)
    (hin : s.inputs = c :: rest) (hpres : presents (encode i) c = true) (hwf : i.wf = true) (hwidth : widthOk i = true)
    (hF : frameOf i (started c rest s) = some F) :
    step s = .next (started c rest s) ∧ decode (started c rest s).curCw = .ok i := by
  simp only [presents, Bool.and_eq_true, Bool.not_eq_true', beq_iff_eq] at hpres
  obtain ⟨⟨hrst, hvalid⟩, hword⟩ := hpres
  have hnow : s.now = c := now_cons hin
  have hdec : decode c.cmdWord = .ok i := by rw [hword, decode_encode hwf]
  have haccept : advance (startFrame (accept s)) = started c rest s := by
    rw [started, ← hnow, show rest = s.inputs.tail by rw [hin]; rfl]
    rfl
  have hF' : frameOf i (accept s) = some F := by
    rw [← frameOf_startFrame, ← frameOf_advance, haccept, hF]
  refine ⟨?_, hdec⟩
  rw [step_of_accepting hidle (by rw [hnow, hrst]) (by rw [hnow, hvalid]),
    runAccepted_of_decode (i := i) (by rw [accept_curCw, hnow, hdec]), exec_idle_of_frame (s := accept s) hidle hF',
    if_pos hwidth, advanced, haccept]

/-- A command runs from its acceptance to the end of its first frame. -/
theorem runSteps_command {i : Instr} {s : State} {c : Inputs} {ins rest : List Inputs} {F : List Slot} (hidle : s.phase = .idle)
    (hin : s.inputs = c :: (ins ++ rest)) (hpres : presents (encode i) c = true) (hwf : i.wf = true) (hwidth : widthOk i = true)
    (hF : frameOf i (started c (ins ++ rest) s) = some F) (hserves : serves (F.map Slot.prim) ins = true) :
    runSteps (F.length + 1) s = .next (afterFrame i (afterPlaces F ins rest (started c (ins ++ rest) s))) := by
  obtain ⟨hstep, hdec⟩ := step_of_presented hidle hin hpres hwf hwidth hF
  rw [runSteps_of_step hstep]
  exact runSteps_frame rfl rfl hdec hF hserves rfl

/-! ### The bytes a frame receives -/

/-- A write frame leaves the receive registers. -/
theorem afterPlaces_of_no_dest {F : List Slot} (h : ∀ c ∈ F, c.dest = none) (ins rest : List Inputs) (s : State) :
    afterPlaces F ins rest s = { s with
      fi := BitVec.ofNat 4 F.length, inputs := rest, out := exchanges (F.map Slot.prim) ins ++ s.out } := by
  rw [afterPlaces, received_of_no_dest .rxh h, received_of_no_dest .rxl h]

theorem afterPlaces_frameW16 (sla : SlaveAddr) (reg : Byte) (v : Half) (ins rest : List Inputs) (s : State) :
    afterPlaces (frameW16 sla reg v) ins rest s = { s with
      fi := 6#4, inputs := rest, out := exchanges (primsW16 sla reg v) ins ++ s.out } :=
  afterPlaces_of_no_dest (by simp [frameW16, slot]) ins rest s

theorem afterPlaces_frameW8 (sla : SlaveAddr) (reg b : Byte) (ins rest : List Inputs) (s : State) :
    afterPlaces (frameW8 sla reg b) ins rest s = { s with
      fi := 5#4, inputs := rest, out := exchanges (primsW8 sla reg b) ins ++ s.out } :=
  afterPlaces_of_no_dest (by simp [frameW8, slot]) ins rest s

/-- The read frame of a 16-bit register receives its two bytes at the places 5 and 6. -/
theorem afterPlaces_frameR16 {sla : SlaveAddr} {reg : Byte} {ins : List Inputs} (hserves : serves (primsR16 sla reg) ins = true)
    (rest : List Inputs) (s : State) :
    afterPlaces (frameR16 sla reg) ins rest s = { s with
      fi := 8#4, rxh := byteAt ins 5, rxl := byteAt ins 6, inputs := rest,
      out := exchanges (primsR16 sla reg) ins ++ s.out } := by
  match ins, serves_length hserves with
  | [_, _, _, _, _, _, _, _], _ => rfl

/-- The read frame of an 8-bit register receives its byte at the place 5. -/
theorem afterPlaces_frameR8 {sla : SlaveAddr} {reg : Byte} {ins : List Inputs} (hserves : serves (primsR8 sla reg) ins = true)
    (rest : List Inputs) (s : State) :
    afterPlaces (frameR8 sla reg) ins rest s = { s with
      fi := 7#4, rxl := byteAt ins 5, inputs := rest, out := exchanges (primsR8 sla reg) ins ++ s.out } := by
  match ins, serves_length hserves with
  | [_, _, _, _, _, _, _], _ => rfl

/-! ### Commands of one write frame -/

/-- The lock bits 6 and 7 and the sleep bit 8 of ALERT_ENABLE's word are clear (R115). -/
theorem alertConfig_lock_and_sleep_bits (hyst : BitVec 2) (mode : BitVec 1) : (alertConfig hyst mode).extractLsb' 6 3 = 0#3 := by
  ext k hk
  rw [BitVec.getElem_extractLsb', getLsbD_alertConfig]
  interval_cases k <;> simp

/-- Settles O43: the address has a 16-bit register, and the frame is `Frame_W16`. -/
theorem write16RunsToCompletion : Obligations.Write16RunsToCompletion := by
  intro s reg v c ins rest hidle hin hpres hlo hhi hserves
  have hwidth : widthOk (.write16 reg v) = true := beq_iff_eq.mpr ((regWidth_eq_bits16_iff reg).mpr ⟨hlo, hhi⟩)
  have hrun := runSteps_command hidle hin hpres rfl hwidth rfl hserves
  rw [afterPlaces_frameW16] at hrun
  rw [hidle]
  exact hrun

/-- Settles O44: RESOLUTION is 8 bits wide, and the frame is `Frame_W8`. -/
theorem write8RunsToCompletion : Obligations.Write8RunsToCompletion := by
  intro s b c ins rest hidle hin hpres hserves
  have hrun := runSteps_command hidle hin hpres rfl rfl rfl hserves
  rw [afterPlaces_frameW8] at hrun
  rw [hidle]
  exact hrun

/-- Settles O48: the frame of WRITE8 to RESOLUTION, with the code extended. -/
theorem setResolutionRunsToCompletion : Obligations.SetResolutionRunsToCompletion := by
  intro s code c ins rest hidle hin hpres hserves
  have hrun := runSteps_command hidle hin hpres rfl rfl rfl hserves
  rw [afterPlaces_frameW8, afterFrame, zext32_resolutionByte] at hrun
  rw [hidle]
  exact hrun

/-- Settles O49: the operand of the frame is the one latched at the acceptance, under the state's rounding mode. -/
theorem setLimitRunsToCompletion : Obligations.SetLimitRunsToCompletion := by
  intro s which c ins rest hidle hsel hin hpres w reg hserves
  have hwf : (Instr.setLimit which).wf = true := bne_iff_ne.mpr hsel
  have hrun := runSteps_command hidle hin hpres hwf rfl (frameOf_setLimit hsel _) hserves
  rw [afterPlaces_frameW16] at hrun
  rw [hidle]
  exact hrun

/-- Settles O50: one write frame of `alertConfig`, whose bits 8:6 are among the clear ones of R70. -/
theorem alertEnableOverwritesConfig : Obligations.AlertEnableOverwritesConfig := by
  intro s hyst mode c ins rest hidle hin hpres cfg hserves
  have hrun := runSteps_command hidle hin hpres rfl rfl rfl hserves
  rw [afterPlaces_frameW16] at hrun
  rw [hidle]
  exact ⟨alertConfig_lock_and_sleep_bits hyst mode, hrun⟩

/-! ### Commands that read a 16-bit register -/

/-- The block after the last place of a command's read of the register `reg`. -/
def afterRead (c : Inputs) (reg : Byte) (ins rest : List Inputs) (s : State) : State :=
  { started c rest s with
    fi := 8#4, rxh := byteAt ins 5, rxl := byteAt ins 6, out := exchanges (primsR16 s.sla reg) ins ++ s.out }

/-- A command whose first frame reads a 16-bit register, to the end of that frame. -/
theorem runSteps_read_command {i : Instr} {reg : Byte} {s : State} {c : Inputs} {ins rest : List Inputs} (hidle : s.phase = .idle)
    (hin : s.inputs = c :: (ins ++ rest)) (hpres : presents (encode i) c = true) (hwf : i.wf = true) (hwidth : widthOk i = true)
    (hF : frameOf i (started c (ins ++ rest) s) = some (frameR16 s.sla reg)) (hserves : serves (primsR16 s.sla reg) ins = true) :
    runSteps 9 s = .next (afterFrame i (afterRead c reg ins rest s)) := by
  have hrun := runSteps_command hidle hin hpres hwf hwidth hF hserves
  rw [afterPlaces_frameR16 hserves] at hrun
  exact hrun

/-- Settles O45: the result is the word of the two bytes, in the order BUS gave them. -/
theorem rawSixteenBitReadsRunToCompletion : Obligations.RawSixteenBitReadsRunToCompletion := by
  intro s i reg c ins rest hidle hin hpres hi hserves r
  rw [hidle]
  rcases hi with ⟨rfl, hlo, hhi⟩ | ⟨rfl, rfl⟩ | ⟨rfl, rfl⟩
  · have hwidth : widthOk (.read16 reg) = true := beq_iff_eq.mpr ((regWidth_eq_bits16_iff reg).mpr ⟨hlo, hhi⟩)
    exact runSteps_read_command hidle hin hpres rfl hwidth rfl hserves
  · exact runSteps_read_command hidle hin hpres rfl rfl rfl hserves
  · exact runSteps_read_command hidle hin hpres rfl rfl rfl hserves

/-- Settles O47: the cache and the result take the word of the two bytes. -/
theorem getTemperatureRunsToCompletion : Obligations.GetTemperatureRunsToCompletion := by
  intro s c ins rest hidle hin hpres hserves raw r
  rw [hidle, ← statusFlags_eq]
  exact runSteps_read_command hidle hin hpres rfl rfl rfl hserves

/-- Settles O46: READ8 receives one byte, into `RXL`. -/
theorem read8RunsToCompletion : Obligations.Read8RunsToCompletion := by
  intro s c ins rest hidle hin hpres hserves
  have hrun := runSteps_command hidle hin hpres rfl rfl rfl hserves
  rw [afterPlaces_frameR8 (sla := (started c (ins ++ rest) s).sla) hserves] at hrun
  rw [hidle]
  exact hrun

/-! ### Read-modify-write -/

/-- An RMW command has no operand to be refused. -/
theorem wf_and_widthOk_of_isRmw {i : Instr} (h : isRmw i = true) : i.wf = true ∧ widthOk i = true := by
  cases i
  case sleep | wakeup | tcritLock | tcritUnlock | windowLock | windowUnlock => exact ⟨rfl, rfl⟩
  all_goals cases h

/-- The block after both transactions of an RMW command, which wrote `v`: CONFIG as read in `HOLD`, the word written in `RES`. -/
def rmwWritten (c : Inputs) (rd wr rest : List Inputs) (v : Half) (s : State) : State :=
  { started c rest s with
    fi := 6#4, tn := 1#1, rxh := byteAt rd 5, rxl := byteAt rd 6, hold := byteAt rd 5 ++ byteAt rd 6, res := zext32 v,
    out := exchanges (primsW16 s.sla regConfig v) wr ++ (exchanges (primsR16 s.sla regConfig) rd ++ s.out) }

/-- An RMW command reads CONFIG and writes its changed value back; then `done` follows (R121). -/
theorem runSteps_rmw {i : Instr} {f : Half → Half} {done : State → State} (hi : IsRmwOf i f done) {s : State} {c : Inputs}
    {rd wr rest : List Inputs} {v : Half} (hidle : s.phase = .idle) (hin : s.inputs = c :: (rd ++ (wr ++ rest)))
    (hpres : presents (encode i) c = true) (hread : serves (primsR16 s.sla regConfig) rd = true)
    (hv : v = f (byteAt rd 5 ++ byteAt rd 6)) (hwrite : serves (primsW16 s.sla regConfig v) wr = true) :
    runSteps 15 s = .next (done (rmwWritten c rd wr rest v s)) := by
  have hrmw : isRmw i = true := hi.1
  obtain ⟨hwf, hwidth⟩ := wf_and_widthOk_of_isRmw hrmw
  have hF := frameOf_rmw_read (s := started c (rd ++ (wr ++ rest)) s) hrmw rfl
  obtain ⟨-, hdec⟩ := step_of_presented hidle hin hpres hwf hwidth hF
  have hfirst := runSteps_read_command hidle hin hpres hwf hwidth hF hread
  rw [afterFrame_rmw_read hrmw rfl] at hfirst
  subst hv
  have hsecond := runSteps_frame (s := startWrite (afterRead c regConfig rd (wr ++ rest) s)) rfl rfl hdec
    (frameOf_rmw_write hi rfl) hwrite rfl
  rw [afterFrame_rmw_write hi rfl, afterPlaces_frameW16] at hsecond
  exact (runSteps_add 6 hfirst).trans hsecond

/-- Settles O51: each lock command is an RMW that responds after its write. -/
theorem lockCommandsRunToCompletion : Obligations.LockCommandsRunToCompletion := by
  intro s i v c rd wr rest hidle hin hpres hread old hi hwrite
  rw [hidle]
  rcases hi with ⟨rfl, hv⟩ | ⟨rfl, hv⟩ | ⟨rfl, hv⟩ | ⟨rfl, hv⟩
  · exact runSteps_rmw isRmwOf_tcritLock hidle hin hpres hread hv hwrite
  · exact runSteps_rmw isRmwOf_tcritUnlock hidle hin hpres hread hv hwrite
  · exact runSteps_rmw isRmwOf_windowLock hidle hin hpres hread hv hwrite
  · exact runSteps_rmw isRmwOf_windowUnlock hidle hin hpres hread hv hwrite

/-- The settle wait holds through any steps without TIMER's answer to it, and the command responds at the step that has it (R120). -/
theorem runSteps_settle {i : Instr} {fin : Inputs} {rest : List Inputs} (hpower : isPower i = true) :
    ∀ (waits : List Inputs) {u : State}, u.phase = .settle → decode u.curCw = .ok i → u.inputs = waits ++ fin :: rest →
      (∀ w ∈ waits, w.rst = false ∧ w.settleDone ≠ some u.settleWaits) → fin.rst = false →
      fin.settleDone = some u.settleWaits → runSteps (waits.length + 1) u = .next (respond { u with inputs := rest }) := by
  intro waits
  induction waits with
  | nil =>
    intro u hsettle hdec hin _ hfrst hfin
    have hanswered : settleAnswered u = true := settleAnswered_iff.mpr (by rw [now_cons hin, hfin])
    have hexec := exec_settle_of_isPower hpower hsettle
    rw [settleStep_eq, if_pos hanswered] at hexec
    rw [runSteps_succ rfl (step_of_exec (by simp [hsettle]) hdec hin hfrst hexec), advance_respond, advance, hin]
    rfl
  | cons w waits ih =>
    intro u hsettle hdec hin hwaits hfrst hfin
    obtain ⟨hwrst, hother⟩ := hwaits w List.mem_cons_self
    have hanswered : settleAnswered u ≠ true := mt settleAnswered_iff.mp (by rwa [now_cons hin])
    have hexec := exec_settle_of_isPower hpower hsettle
    rw [settleStep_eq, if_neg hanswered] at hexec
    rw [List.length_cons, runSteps_of_step (step_of_exec (by simp [hsettle]) hdec hin hwrst hexec)]
    exact ih (u := advance u) hsettle hdec (by rw [advance_inputs, hin]; rfl)
      (fun x hx => hwaits x (List.mem_cons_of_mem _ hx)) hfrst hfin

/-- Settles O52: SLEEP and WAKEUP are RMWs that start a settle wait after their write, and then wait. -/
theorem powerCommandsRunToCompletion : Obligations.PowerCommandsRunToCompletion := by
  intro s i v c fin rd wr waits rest hidle hin hpres hread old hi hwrite hwaits hfrst hfin
  have settled (hpower : isPower i = true) (hdec : decode c.cmdWord = .ok i) :=
    runSteps_settle (rest := rest) hpower waits (u := startSettle (rmwWritten c rd wr (waits ++ fin :: rest) v s)) rfl hdec rfl
      hwaits hfrst hfin
  have hword : c.cmdWord = encode i := by
    simp only [presents, Bool.and_eq_true, beq_iff_eq] at hpres
    exact hpres.2
  rw [hidle, show 16 + waits.length = 15 + (waits.length + 1) by omega]
  rcases hi with ⟨rfl, hv⟩ | ⟨rfl, hv⟩
  · have hwritten := runSteps_rmw isRmwOf_sleep hidle hin hpres hread hv hwrite
    exact (runSteps_add _ hwritten).trans (settled rfl (by rw [hword, decode_encode rfl]))
  · have hwritten := runSteps_rmw isRmwOf_wakeup hidle hin hpres hread hv hwrite
    exact (runSteps_add _ hwritten).trans (settled rfl (by rw [hword, decode_encode rfl]))

end Sys2Proof.Machine
end
